-- ==== Sys2Proof/Word.lean ====
section
/-! DEFINITION. The words of the block: bytes (codewords and polynomial coefficients, 00 R7), 32-bit register
values (10 R20), and the three values of a matrix cell (10 R34). -/

namespace Sys2Proof

/-- A byte: one codeword, one polynomial coefficient, one element of GF(256). -/
abbrev Byte := BitVec 8

/-- A 32-bit unsigned register value (00 R5, 10 R20). -/
abbrev Word := BitVec 32

/-- A bitstream buffer's contents: index 0 is the first bit appended (10 R31). -/
abbrev Bits := List Bool

/-- The value of one matrix cell (10 R34, 45 R181): light (0), dark (1) or UNSET. -/
inductive MxCell where
  | light
  | dark
  | unset
  deriving DecidableEq, Repr

end Sys2Proof
end

