-- ==== Sys2Proof/Syntax.lean ====
section
/-! DEFINITION. The commands of QRCE: one constructor per row of spec/opcode_table.json (30 R74). The only operand
inside a command word is S, the bitstream select (30 R70); every other operand is in the ARG registers (30 R72). -/

namespace Sys2Proof

/-- The two bitstream buffers, selected by CMD bit 8 (30 R70): 0 selects BS[A], 1 selects BS[B]. -/
inductive Buf where
  | A
  | B
  deriving DecidableEq, Repr

/-- `other(s)` of 00 R8: B when s = A, A when s = B. -/
def Buf.other : Buf → Buf
  | .A => .B
  | .B => .A

/-- The commands (30 R74), in the table's order. -/
inductive Instr where
  | nop
  | bsClear (s : Buf)
  | bsAppendBit (s : Buf)
  | bsAppendBits (s : Buf)
  | bsAppendBs (s : Buf)
  | bsXor (s : Buf)
  | bsExtract (s : Buf)
  | bsGetBit (s : Buf)
  | bsAppendCw (s : Buf)
  | gfAdd
  | gfMul
  | gfInv
  | gfExp
  | gfLog
  | rsGen
  | polyMul
  | polyMod
  | rsEnc
  | bchCode
  | fmtInfo
  | verInfo
  | mxClear
  | mxSet
  | mxGet
  | mxPlace (s : Buf)
  | mxScore
  | mxMaskbit
  deriving DecidableEq, Repr

end Sys2Proof
end

