-- ==== Sys2Proof/WellFormed.lean ====
section
/-! DEFINITION. When a 32-bit word is a legal command word (30 R70, R71, R74, R75). A term of `Instr` has no operand
that could be out of range (its one operand, S, is a `Buf`), so the checks are about the WORD: its reserved bits,
its opcode, and S on an opcode that does not take it. -/

namespace Sys2Proof

/-- The opcodes of 30 R74 that are marked "S". -/
def selOpcodes : List Nat := [0x10, 0x11, 0x12, 0x13, 0x14, 0x15, 0x16, 0x17, 0x53]

/-- The opcodes of 30 R74 that are not marked "S". -/
def plainOpcodes : List Nat :=
  [0x00, 0x20, 0x21, 0x22, 0x23, 0x24, 0x30, 0x31, 0x32, 0x33, 0x40, 0x41, 0x42, 0x50, 0x51, 0x52, 0x54, 0x55]

/-- The OP field, bits [7:0] (30 R70). -/
def CmdWord.op (w : Word) : Nat := w.toNat % 256

/-- First check of 30 R71: bits [31:9] are 0. -/
def CmdWord.reservedZero (w : Word) : Bool := w.toNat / 512 == 0

/-- Second check of 30 R71: OP is in the opcode map. -/
def CmdWord.opKnown (w : Word) : Bool :=
  selOpcodes.contains (CmdWord.op w) || plainOpcodes.contains (CmdWord.op w)

/-- Third check of 30 R71: S = 1 only on an opcode marked "S". -/
def CmdWord.selAllowed (w : Word) : Bool := !w.getLsbD 8 || selOpcodes.contains (CmdWord.op w)

/-- A legal command word: it passes the three checks of 30 R71. -/
def CmdWord.wellFormed (w : Word) : Bool :=
  CmdWord.reservedZero w && CmdWord.opKnown w && CmdWord.selAllowed w

end Sys2Proof
end

