-- ==== Sys2Proof/Decode.lean ====
section
/-! DEFINITION. The decoder (30 R71, R74, R75) and the encoder (30 R70, R74). There is one format, one 32-bit word
(30 R76), and byte order does not arise (20 R56). -/

namespace Sys2Proof

/-- Why a word is no command. Each reason ends in the error completion ILLEGAL (30 R71, R75). -/
inductive DecodeError where
  /-- Bits [31:9] are not all 0. -/
  | reservedBits
  /-- OP is not in the opcode map. -/
  | reservedOp
  /-- S = 1 on an opcode not marked "S". -/
  | selOnPlainOp
  deriving DecidableEq, Repr

/-- `s <- (w[8] == 0) ? A : B` (30 R71). -/
def selBuf (s : Bool) : Buf := if s then .B else .A

/-- The S bit of a buffer (30 R70). -/
def selBit : Buf → Bool
  | .A => false
  | .B => true

/-- An opcode not marked "S": legal only with S = 0 (30 R71). -/
def decodePlain (i : Instr) (s : Bool) : Except DecodeError Instr :=
  if s then .error .selOnPlainOp else .ok i

/-- The opcode map of 30 R74, on OP and S. -/
def decodeOp (op : Nat) (s : Bool) : Except DecodeError Instr :=
  match op with
  | 0x00 => decodePlain .nop s
  | 0x10 => .ok (.bsClear (selBuf s))
  | 0x11 => .ok (.bsAppendBit (selBuf s))
  | 0x12 => .ok (.bsAppendBits (selBuf s))
  | 0x13 => .ok (.bsAppendBs (selBuf s))
  | 0x14 => .ok (.bsXor (selBuf s))
  | 0x15 => .ok (.bsExtract (selBuf s))
  | 0x16 => .ok (.bsGetBit (selBuf s))
  | 0x17 => .ok (.bsAppendCw (selBuf s))
  | 0x20 => decodePlain .gfAdd s
  | 0x21 => decodePlain .gfMul s
  | 0x22 => decodePlain .gfInv s
  | 0x23 => decodePlain .gfExp s
  | 0x24 => decodePlain .gfLog s
  | 0x30 => decodePlain .rsGen s
  | 0x31 => decodePlain .polyMul s
  | 0x32 => decodePlain .polyMod s
  | 0x33 => decodePlain .rsEnc s
  | 0x40 => decodePlain .bchCode s
  | 0x41 => decodePlain .fmtInfo s
  | 0x42 => decodePlain .verInfo s
  | 0x50 => decodePlain .mxClear s
  | 0x51 => decodePlain .mxSet s
  | 0x52 => decodePlain .mxGet s
  | 0x53 => .ok (.mxPlace (selBuf s))
  | 0x54 => decodePlain .mxScore s
  | 0x55 => decodePlain .mxMaskbit s
  | _ => .error .reservedOp

/-- The decoder of 30 R71: total, from the word alone (30 R76). -/
def decodeWord (w : Word) : Except DecodeError Instr :=
  if w.toNat / 512 ≠ 0 then .error .reservedBits
  else decodeOp (w.toNat % 256) (w.getLsbD 8)

/-- The command a table row's bits decode to. The hardware takes a command as ONE 32-bit word (30 R70), so the bits
above `nbits` are 0 and the rest is the word. -/
def decodeTableWord (nbits w : Nat) : Option Instr :=
  (decodeWord (BitVec.ofNat 32 (w % 2 ^ nbits))).toOption

/-- The OP field of a command (30 R74). -/
def opcode : Instr → Nat
  | .nop => 0x00
  | .bsClear _ => 0x10
  | .bsAppendBit _ => 0x11
  | .bsAppendBits _ => 0x12
  | .bsAppendBs _ => 0x13
  | .bsXor _ => 0x14
  | .bsExtract _ => 0x15
  | .bsGetBit _ => 0x16
  | .bsAppendCw _ => 0x17
  | .gfAdd => 0x20
  | .gfMul => 0x21
  | .gfInv => 0x22
  | .gfExp => 0x23
  | .gfLog => 0x24
  | .rsGen => 0x30
  | .polyMul => 0x31
  | .polyMod => 0x32
  | .rsEnc => 0x33
  | .bchCode => 0x40
  | .fmtInfo => 0x41
  | .verInfo => 0x42
  | .mxClear => 0x50
  | .mxSet => 0x51
  | .mxGet => 0x52
  | .mxPlace _ => 0x53
  | .mxScore => 0x54
  | .mxMaskbit => 0x55

/-- The S bit of a command; 0 for an opcode not marked "S" (30 R70). -/
def selOf : Instr → Bool
  | .bsClear s => selBit s
  | .bsAppendBit s => selBit s
  | .bsAppendBits s => selBit s
  | .bsAppendBs s => selBit s
  | .bsXor s => selBit s
  | .bsExtract s => selBit s
  | .bsGetBit s => selBit s
  | .bsAppendCw s => selBit s
  | .mxPlace s => selBit s
  | .nop => false
  | .gfAdd => false
  | .gfMul => false
  | .gfInv => false
  | .gfExp => false
  | .gfLog => false
  | .rsGen => false
  | .polyMul => false
  | .polyMod => false
  | .rsEnc => false
  | .bchCode => false
  | .fmtInfo => false
  | .verInfo => false
  | .mxClear => false
  | .mxSet => false
  | .mxGet => false
  | .mxScore => false
  | .mxMaskbit => false

/-- The command word `OP | (S << 8)` (30 R70, R77). -/
def encode (i : Instr) : Word :=
  BitVec.ofNat 32 (opcode i + 256 * (selOf i).toNat)

end Sys2Proof
end

