-- ==== Sys2Proof/Config.lean ====
section
/-! DEFINITION. What an implementation fixes (00 R2) and the free values the spec leaves open (60 R229, 70 R253).
The three `opaque` constants have no body: nothing can be proved about their values, so a theorem holds whatever they
are. -/

namespace Sys2Proof

/-- BS_MAX_BITS, the capacity of each bitstream buffer in bits (00 R2). -/
def Config.bsMaxBits : Nat := 32768
/-- CW_MAX, the size of CWRAM in bytes (00 R2). -/
def Config.cwMax : Nat := 4096
/-- EC_MAX, the largest ecLength (00 R2). -/
def Config.ecMax : Nat := 255
/-- POLY_MAX, the largest coefficient count of a polynomial operand (00 R2). No check reads it: a region in bounds
has at most CW_MAX = POLY_MAX bytes. -/
def Config.polyMax : Nat := 4096
/-- VER_MIN (00 R2). -/
def Config.verMin : Nat := 1
/-- VER_MAX (00 R2). -/
def Config.verMax : Nat := 40
/-- ID_VALUE, ASCII "QRCE" (00 R2, 10 R21). -/
def Config.idValue : Word := 0x51524345#32
/-- REV_VALUE (00 R2, 10 R22). -/
def Config.revValue : Word := 0x00000001#32

/-- FREE VALUE. The byte the n-th draw gives: a read of a CWRAM byte that nothing has written (70 R246), by host or
command, and a host read of the CWRAM window while BUSY = 1 (70 R248). UNVERIFIED by design, safe (log entry 1). -/
opaque Config.freeByte : Nat → Byte

/-- FREE VALUE. The word the n-th draw gives: a host read of RES0 to RES4 or of a mirror while BUSY = 1 (70 R248).
UNVERIFIED by design, safe (log entry 1). -/
opaque Config.freeWord : Nat → Word

/-- FREE VALUE. T_CMD (70 R253, 92 open parameters): how many host operations come between an issue and the engine's
transition. A number, so the engine is weakly fair (70 R252). UNVERIFIED by design, safe (log entry 2). -/
opaque Config.latency : Nat → Nat

end Sys2Proof
end

