-- ==== Sys2Proof/Machine/State.lean ====
section
/-! DEFINITION. The state of the block as plain data (10 R20 to R37), what the outside puts on its input ports (20 R50),
why a step stops, and the state after a hard reset (70 R241). -/

namespace Sys2Proof.Machine

/-- The block has no fault: every command word has a defined outcome, and a failing command ends in an error
completion, which is a next state (60 R213, R223, R229). So this type has no constructor. -/
inductive Fault where
  deriving DecidableEq, Repr

/-- Why a step has no meaning (60 R229). -/
inductive Refusal where
  /-- An instruction that has no meaning in the model. Raised only by an arm of `exec`; no arm does. Safe. -/
  | notModelled (mnemonic : String)
  /-- A host access that is not one aligned 32-bit read or write (20 R54). Raised by `portCycle`. Safe: 20 R54 says
  that a model must refuse it. -/
  | unsupportedAccess
  /-- A host access by a second host (20 R63, 60 R229). Raised by `portCycle`. Safe. -/
  | secondHost
  /-- A host access while rst = 1 (70 R240, 60 R229). Raised by `portCycle`. Safe. -/
  | accessDuringReset
  deriving DecidableEq, Repr

/-- What stands on the block's input ports at one clock edge (20 R50). -/
structure PortInput where
  /-- rst: the synchronous active-high hard reset. -/
  rst : Bool := false
  /-- bus_we: the write strobe. -/
  we : Bool := false
  /-- bus_re: the read strobe. -/
  re : Bool := false
  /-- bus_addr: the byte offset within the block. -/
  addr : BitVec 16 := 0#16
  /-- bus_wdata. -/
  wdata : Word := 0#32
  /-- bus_size: 0b10 is a 32-bit word. -/
  size : BitVec 2 := 0b10#2
  /-- The access is made by a second host. No port carries this: it marks the run that 60 R229 refuses. -/
  otherHost : Bool := false
  deriving DecidableEq, Repr

/-- One thing the host does. -/
inductive HostOp where
  /-- One clock edge with these inputs (20 R50): a read, a write, a reset, or nothing. -/
  | cycle (p : PortInput)
  /-- WAIT (30 R78): the host reads STATUS until BUSY is 0, and does nothing else before. -/
  | wait
  deriving DecidableEq, Repr

/-- The six operand registers (10 R27). -/
structure ArgRegs where
  arg0 : Word
  arg1 : Word
  arg2 : Word
  arg3 : Word
  arg4 : Word
  arg5 : Word
  deriving DecidableEq, Repr

/-- The five result registers (10 R28). -/
structure ResRegs where
  res0 : Word
  res1 : Word
  res2 : Word
  res3 : Word
  res4 : Word
  deriving DecidableEq, Repr

/-- The state of the block, and the host operations it has not yet taken. -/
structure State where
  /-- CTRL.IE (10 R24). -/
  ie : Bool
  /-- STATUS.BUSY (10 R25): also the engine's phase, IDLE or BUSY (10 R37). -/
  busy : Bool
  /-- STATUS.DONE (10 R25). -/
  done : Bool
  /-- STATUS.ERR (10 R25). -/
  err : Bool
  /-- STATUS.OVR (10 R25). -/
  ovr : Bool
  /-- STATUS.ERRCODE (10 R25, 60 R214). -/
  errcode : BitVec 8
  /-- CMD: the word latched by the last issue (10 R26, R37). -/
  cmd : Word
  /-- ARG0 to ARG5 (10 R27). -/
  args : ArgRegs
  /-- RES0 to RES4 (10 R28). -/
  res : ResRegs
  /-- BS[A] (10 R31). -/
  bsA : Bits
  /-- BS[B] (10 R31). -/
  bsB : Bits
  /-- CWRAM (10 R33): the bytes that have been written, by rising address. An address that is not listed is
  UNWRITTEN: a read of it is a fresh draw (70 R246). -/
  cw : List Host.Cell
  /-- MX_VER (10 R29, R34): 0, or the version of the matrix. -/
  mxVer : Nat
  /-- The matrix (10 R34): its rows from the top, each from the left (45 R180). Only cells that exist are held
  (10 R35). -/
  grid : List (List MxCell)
  /-- bus_rdata (20 R50): the data of the last read. -/
  rdata : Word
  /-- The model's own: the host operations not yet taken, oldest first (20 R62). -/
  bus : List HostOp
  /-- The model's own: while busy, the host operations still to come before the engine's transition (70 R253). -/
  wait : Nat
  /-- The model's own: how many free values have been drawn. -/
  draws : Nat
  deriving DecidableEq, Repr

/-- CWRAM's canonical form: addresses strictly rising, all below CW_MAX. Every listed byte is one that has been
written; an unlisted byte has no value to be listed with. -/
abbrev Memory.wf (m : List Host.Cell) : Prop :=
  m.Pairwise (fun c d => c.1 < d.1) ∧ ∀ c ∈ m, c.1 < Config.cwMax

/-- The state after a hard reset (70 R241): every register 0, both bitstreams empty, no matrix, CWRAM unwritten, idle.
`rdata`, `bus`, `wait` and `draws` are no registers of the block (log entries 1 to 4). -/
def State.reset : State where
  ie := false
  busy := false
  done := false
  err := false
  ovr := false
  errcode := 0x00#8
  cmd := 0#32
  args := { arg0 := 0#32, arg1 := 0#32, arg2 := 0#32, arg3 := 0#32, arg4 := 0#32, arg5 := 0#32 }
  res := { res0 := 0#32, res1 := 0#32, res2 := 0#32, res3 := 0#32, res4 := 0#32 }
  bsA := []
  bsB := []
  cw := []
  mxVer := 0
  grid := []
  rdata := 0#32
  bus := []
  wait := 0
  draws := 0

end Sys2Proof.Machine
end

