-- ==== Sys2Proof/Machine/Flags.lean ====
section
/-! DEFINITION. The flags: the error codes (60 R214), STATUS and CTRL as the host reads them (10 R24, R25), the
write-1-to-clear bits (10 R25), irq (60 R220), and what a completion and an issue do to STATUS (60 R211 to R213). -/

namespace Sys2Proof.Machine

/-- The error codes (60 R214) by name. -/
inductive ErrCode where
  | illegal | range | bsFull | xorLen | bsIndex | gfZero | gfLog0 | rsNoEc | rsNoData | divZero | bchZeroPoly
  | cwBounds | overlap | mxNodim | mxCoord | placeLeftover | mxUnset
  deriving DecidableEq, Repr

/-- The numbers of the error codes (60 R214). -/
def ErrCode.number : ErrCode → BitVec 8
  | .illegal => 0x01#8
  | .range => 0x02#8
  | .bsFull => 0x03#8
  | .xorLen => 0x04#8
  | .bsIndex => 0x05#8
  | .gfZero => 0x06#8
  | .gfLog0 => 0x07#8
  | .rsNoEc => 0x08#8
  | .rsNoData => 0x09#8
  | .divZero => 0x0A#8
  | .bchZeroPoly => 0x0B#8
  | .cwBounds => 0x0C#8
  | .overlap => 0x0D#8
  | .mxNodim => 0x0E#8
  | .mxCoord => 0x0F#8
  | .placeLeftover => 0x10#8
  | .mxUnset => 0x11#8

/-- STATUS as the host reads it (10 R25): BUSY [0], DONE [1], ERR [2], OVR [3], ERRCODE [15:8], the rest 0. -/
def statusWord (s : State) : Word :=
  BitVec.ofNat 32
    (s.busy.toNat + 2 * s.done.toNat + 4 * s.err.toNat + 8 * s.ovr.toNat + 256 * s.errcode.toNat)

/-- CTRL as the host reads it (10 R24): IE [0]; SRST and the reserved bits read 0. -/
def ctrlWord (s : State) : Word := BitVec.ofNat 32 s.ie.toNat

/-- The interrupt output (60 R220): `irq = STATUS.DONE AND CTRL.IE`. -/
def irq (s : State) : Bool := s.done && s.ie

/-- A host write of `w` to STATUS (10 R25): W1C on DONE [1] and OVR [3], nothing else. -/
def writeStatus (w : Word) (s : State) : State :=
  { s with done := s.done && !w.getLsbD 1, ovr := s.ovr && !w.getLsbD 3 }

/-- The STATUS half of a success completion (60 R212). The command in flight is over, so nothing is waited for. -/
def succeed (s : State) : State :=
  { s with busy := false, done := true, err := false, errcode := 0x00#8, wait := 0 }

/-- The STATUS half of an error completion (60 R213). -/
def failWith (c : ErrCode) (s : State) : State :=
  { s with busy := false, done := true, err := true, errcode := c.number, wait := 0 }

/-- A write that the busy engine drops (70 R247, 60 R222): it sets OVR and does nothing else. -/
def overrun (s : State) : State := { s with ovr := true }

end Sys2Proof.Machine
end

