-- ==== Sys2Proof/Machine/Ops.lean ====
section
/-! DEFINITION. The named operations over the state: CWRAM, the draws, the bitstream buffers, the matrix, the results, a
command's completion (the block's one 'exception', 60 R213), its issue, and the two resets (70 R241 to R243). -/

namespace Sys2Proof.Machine

/-- What a meaning answers. -/
abbrev Result := Host.Outcome State Fault Refusal

/-! ## Completion -/

/-- `complete` (60 R212): the command ends with success. -/
def complete (s : State) : Result := .next (succeed s)

/-- `raise Error(c)` (60 R213): the command ends in error. The block has no trap (60 R223): STATUS is all that an error
changes, no mode and no pc exist. -/
def raiseError (c : ErrCode) (s : State) : Result := .next (failWith c s)

/-! ## CWRAM -/

/-- The byte at `a`, where it has been written. -/
def cwGet? : List Host.Cell → Nat → Option Byte
  | [], _ => none
  | (b, v) :: m, a => if a = b then some v else cwGet? m a

/-- `CW[a] <- v`, keeping the canonical form. -/
def cwSet : List Host.Cell → Nat → Byte → List Host.Cell
  | [], a, v => [(a, v)]
  | (b, u) :: m, a, v =>
    if a < b then (a, v) :: (b, u) :: m else if a = b then (a, v) :: m else (b, u) :: cwSet m a v

/-- The bytes of the region (off, n) are unwritten again (70 R243). -/
def cwForget (m : List Host.Cell) (off n : Nat) : List Host.Cell :=
  m.filter fun c => decide (¬(off ≤ c.1 ∧ c.1 < off + n))

/-- A read of CW[a], with the draw counter before and after: an unwritten byte is drawn afresh at every read
(70 R246). -/
def readByte (m : List Host.Cell) (a d : Nat) : Byte × Nat :=
  match cwGet? m a with
  | some v => (v, d)
  | none => (Config.freeByte d, d + 1)

/-- `MemRead(a, n)` (00 R8), in the order of the addresses. -/
def readBytes (m : List Host.Cell) : Nat → Nat → Nat → List Byte × Nat
  | _, 0, d => ([], d)
  | a, n + 1, d => ((readByte m a d).1 :: (readBytes m (a + 1) n (readByte m a d).2).1,
      (readBytes m (a + 1) n (readByte m a d).2).2)

/-- `MemWrite(a, n, v)` (00 R8), n the length of v. -/
def writeBytes : List Host.Cell → Nat → List Byte → List Host.Cell
  | m, _, [] => m
  | m, a, v :: vs => writeBytes (cwSet m a v) (a + 1) vs

/-! ## Bitstream buffers -/

/-- BS[b] (10 R31). -/
def bs (s : State) (b : Buf) : Bits :=
  match b with
  | .A => s.bsA
  | .B => s.bsB

/-- `BS[b] <- v`. -/
def setBs (s : State) (b : Buf) (v : Bits) : State :=
  match b with
  | .A => { s with bsA := v }
  | .B => { s with bsB := v }

/-- The low n bits of v, most significant first (20 R57, 41 R103): v[n-1], …, v[0]. -/
def bitsMsb (v : Nat) : Nat → Bits
  | 0 => []
  | n + 1 => v.testBit n :: bitsMsb v n

/-- The number whose binary digits are `l`, most significant first. -/
def bitsValue (l : Bits) : Nat := l.foldl (fun a b => 2 * a + b.toNat) 0

/-! ## Operand and result registers -/

/-- ARG[i] (10 R27). -/
def ArgRegs.get (a : ArgRegs) (i : Fin 6) : Word :=
  match i with
  | 0 => a.arg0
  | 1 => a.arg1
  | 2 => a.arg2
  | 3 => a.arg3
  | 4 => a.arg4
  | 5 => a.arg5

/-- `ARG[i] <- v`, by the host (10 R27). -/
def ArgRegs.set (a : ArgRegs) (i : Fin 6) (v : Word) : ArgRegs :=
  match i with
  | 0 => { a with arg0 := v }
  | 1 => { a with arg1 := v }
  | 2 => { a with arg2 := v }
  | 3 => { a with arg3 := v }
  | 4 => { a with arg4 := v }
  | 5 => { a with arg5 := v }

/-- RES[i] (10 R28). -/
def ResRegs.get (a : ResRegs) (i : Fin 5) : Word :=
  match i with
  | 0 => a.res0
  | 1 => a.res1
  | 2 => a.res2
  | 3 => a.res3
  | 4 => a.res4

/-- RES[i] replaced. -/
def ResRegs.set (a : ResRegs) (i : Fin 5) (v : Word) : ResRegs :=
  match i with
  | 0 => { a with res0 := v }
  | 1 => { a with res1 := v }
  | 2 => { a with res2 := v }
  | 3 => { a with res3 := v }
  | 4 => { a with res4 := v }

/-- `RES[i] <- v` (00 R8, 30 R73). -/
def setRes (s : State) (i : Fin 5) (v : Word) : State := { s with res := s.res.set i v }

/-! ## Matrix -/

/-- DIM(v) = 17 + 4 v (00 R2). -/
def dim (v : Nat) : Nat := 17 + 4 * v

/-- MX_DIM (10 R29): DIM(MX_VER), or 0 while there is no matrix. -/
def mxDim (s : State) : Nat := if s.mxVer = 0 then 0 else dim s.mxVer

/-- `cell(x, y)`: column x, row y (45 R180). -/
def cellAt (g : List (List MxCell)) (x y : Nat) : MxCell := (g.getD y []).getD x .unset

/-- `cell(x, y) <- c`. -/
def setCell (g : List (List MxCell)) (x y : Nat) (c : MxCell) : List (List MxCell) :=
  g.set y ((g.getD y []).set x c)

/-- The code of a cell value (45 R181). -/
def cellCode : MxCell → Nat
  | .light => 0
  | .dark => 1
  | .unset => 3

/-- The cell value of a code (45 R181); 2 is no code. -/
def cellOfCode : Nat → Option MxCell
  | 0 => some .light
  | 1 => some .dark
  | 3 => some .unset
  | _ => none

/-- A placed bit as a cell: 1 is dark, 0 is light (45 R190). -/
def cellOfBit (b : Bool) : MxCell := if b then .dark else .light

/-! ## Issue and reset -/

/-- The issue of word `w` (60 R211), while BUSY = 0. The latency of the command is drawn here (70 R253). -/
def issue (w : Word) (s : State) : State :=
  { s with cmd := w, done := false, err := false, errcode := 0x00#8, busy := true,
           wait := Config.latency s.draws, draws := s.draws + 1 }

/-- The CWRAM output region (offset, count) of a command (70 R243), from its ARG operands; none for a command that
writes no CWRAM. -/
def outputRegion (i : Instr) (s : State) : Nat × Nat :=
  match i with
  | .bsExtract _ => (s.args.arg2.toNat, s.args.arg1.toNat)
  | .rsGen => (s.args.arg1.toNat, s.args.arg0.toNat + 1)
  | .polyMul => (s.args.arg4.toNat, s.args.arg1.toNat + s.args.arg3.toNat - 1)
  | .polyMod => (s.args.arg4.toNat, s.args.arg3.toNat - 1)
  | .rsEnc => (s.args.arg3.toNat, s.args.arg2.toNat)
  | .nop => (0, 0)
  | .bsClear _ => (0, 0)
  | .bsAppendBit _ => (0, 0)
  | .bsAppendBits _ => (0, 0)
  | .bsAppendBs _ => (0, 0)
  | .bsXor _ => (0, 0)
  | .bsGetBit _ => (0, 0)
  | .bsAppendCw _ => (0, 0)
  | .gfAdd => (0, 0)
  | .gfMul => (0, 0)
  | .gfInv => (0, 0)
  | .gfExp => (0, 0)
  | .gfLog => (0, 0)
  | .bchCode => (0, 0)
  | .fmtInfo => (0, 0)
  | .verInfo => (0, 0)
  | .mxClear => (0, 0)
  | .mxSet => (0, 0)
  | .mxGet => (0, 0)
  | .mxPlace _ => (0, 0)
  | .mxScore => (0, 0)
  | .mxMaskbit => (0, 0)

/-- CWRAM after a soft reset: kept (70 R242), but the output region of a command in flight is unwritten again
(70 R243, log entry 5). -/
def cwAfterSoftReset (s : State) : List Host.Cell :=
  if s.busy then
    match decodeWord s.cmd with
    | .ok i => cwForget s.cw (outputRegion i s).1 (outputRegion i s).2
    | .error _ => s.cw
  else s.cw

/-- Hard reset (70 R241, R243): all of CWRAM is unwritten and a command in flight is gone. The host's pending
operations, the last read's data and the draw counter are not the block's. -/
def hardReset (s : State) : State :=
  { State.reset with rdata := s.rdata, bus := s.bus, draws := s.draws }

/-- Soft reset (70 R242, R243). -/
def softReset (s : State) : State :=
  { State.reset with cw := cwAfterSoftReset s, rdata := s.rdata, bus := s.bus, draws := s.draws }

end Sys2Proof.Machine
end

