-- ==== Sys2Proof/Machine/Operands.lean ====
section
/-! DEFINITION. The operands of the commands: ARG registers as unsigned integers (30 R72), CWRAM regions (20 R58, R59),
MX_PLACE's mask (45 R191), and results as zero-extended words (30 R73). -/

namespace Sys2Proof.Machine

/-- `ARG[i]` (00 R8, 30 R72): the whole register as an unsigned integer. -/
def arg (s : State) (i : Fin 6) : Nat := (s.args.get i).toNat

/-- `zext_32` of a number (00 R5, 30 R73). Every result named by a rule is below 2^32. -/
def resWord (n : Nat) : Word := BitVec.ofNat 32 n

/-- `inCW(off, n)` (20 R58): the region is in bounds, on mathematical integers. -/
def inCw (off n : Nat) : Bool := decide (off + n ≤ Config.cwMax)

/-- Two regions overlap (20 R59). -/
def overlap (o1 n1 o2 n2 : Nat) : Bool :=
  decide (n1 > 0) && decide (n2 > 0) && decide (o1 < o2 + n2) && decide (o2 < o1 + n1)

/-- MX_PLACE's mask operand (45 R191, 30 R72): 0 to 7, or 0xFFFFFFFF for mask -1, which disables masking
(`some none`); `none` for every other value. -/
def maskOperand (v : Nat) : Option (Option Nat) :=
  if v ≤ 7 then some (some v) else if v = 0xFFFFFFFF then some none else none

end Sys2Proof.Machine
end

