-- ==== Sys2Proof/Machine/Bch.lean ====
section
/-! DEFINITION. The BCH unit (44): the BCH code (44 R160), the format-information word (44 R163) and the
version-information word (44 R167), and their commands. -/

namespace Sys2Proof.Machine

/-- `bitlen(v)` (00 R6): the number of bits of v without leading zeros. -/
def bitlen (v : Nat) : Nat := if v = 0 then 0 else Nat.log2 v + 1

/-- The loop of 44 R160: p is added, aligned to w's highest set bit, while bitlen(w) >= bitlen(p). Each pass clears
that bit, so `fuel = bitlen(w)` passes are enough (60 R210). -/
def bchLoop (p : Nat) : Nat → Nat → Nat
  | 0, w => w
  | fuel + 1, w =>
    if bitlen w ≥ bitlen p then bchLoop p fuel (w ^^^ (p <<< (bitlen w - bitlen p))) else w

/-- `bch(v, p)` (44 R160), p ≥ 1. -/
def bch (v p : Nat) : Nat :=
  bchLoop p (bitlen (v <<< (bitlen p - 1))) (v <<< (bitlen p - 1))

/-- `raw` of 44 R163: data bits d = (c << 3) | m, then their BCH code. -/
def fmtRaw (c m : Nat) : Nat := (((c <<< 3) ||| m) <<< 10) ||| bch ((c <<< 3) ||| m) 0x537

/-- `fmt` of 44 R163. -/
def fmtWord (c m : Nat) : Nat := fmtRaw c m ^^^ 0x5412

/-- `ver` of 44 R167. -/
def verWord (v : Nat) : Nat := (v <<< 12) ||| bch v 0x1F25

/-- BCH_CODE (44 R162): v = ARG0, p = ARG1. -/
def execBchCode (s : State) : Result :=
  if arg s 0 > 0xFFFF ∨ arg s 1 > 0xFFFF then raiseError .range s
  else if arg s 1 = 0 then raiseError .bchZeroPoly s
  else
    let c := bch (arg s 0) (arg s 1)
    complete (setRes (setRes s 0 (resWord c)) 1 (resWord ((arg s 0 <<< (bitlen (arg s 1) - 1)) ||| c)))

/-- FMT_INFO (44 R164): c = ARG0, m = ARG1. -/
def execFmtInfo (s : State) : Result :=
  if arg s 0 > 3 ∨ arg s 1 > 7 then raiseError .range s
  else complete (setRes (setRes (setRes s 0 (resWord (fmtWord (arg s 0) (arg s 1))))
    1 (resWord (fmtRaw (arg s 0) (arg s 1)))) 2 (resWord (bch ((arg s 0 <<< 3) ||| arg s 1) 0x537)))

/-- VER_INFO (44 R168): v = ARG0. -/
def execVerInfo (s : State) : Result :=
  if arg s 0 > 63 then raiseError .range s
  else complete (setRes (setRes s 0 (resWord (verWord (arg s 0)))) 1 (resWord (bch (arg s 0) 0x1F25)))

end Sys2Proof.Machine
end

