-- ==== Sys2Proof/Machine/Bitstream.lean ====
section
/-! DEFINITION. The bitstream unit: the BS_* commands (41 R100 to R109). In each, `b` is the buffer CMD bit 8 selects
and `b.other` is the other one. -/

namespace Sys2Proof.Machine

/-- The n bytes that the bits give, most significant bit first; a bit that does not exist is 0 (41 R106). -/
def extractBytes : Nat → Bits → List Byte
  | 0, _ => []
  | n + 1, l =>
    BitVec.ofNat 8 (bitsValue ((List.range 8).map fun u => l.getD u false)) :: extractBytes n (l.drop 8)

/-- The bits of the bytes, each byte most significant bit first (41 R108). -/
def bytesBits (v : List Byte) : Bits := v.flatMap fun c => bitsMsb c.toNat 8

/-- BS_CLEAR (41 R101). -/
def execBsClear (b : Buf) (s : State) : Result := complete (setBs s b [])

/-- BS_APPEND_BIT (41 R102). -/
def execBsAppendBit (b : Buf) (s : State) : Result :=
  if arg s 0 > 1 then raiseError .range s
  else if (bs s b).length + 1 > Config.bsMaxBits then raiseError .bsFull s
  else complete (setBs s b (bs s b ++ [decide (arg s 0 = 1)]))

/-- BS_APPEND_BITS (41 R103). -/
def execBsAppendBits (b : Buf) (s : State) : Result :=
  if arg s 1 > 32 then raiseError .range s
  else if (bs s b).length + arg s 1 > Config.bsMaxBits then raiseError .bsFull s
  else complete (setBs s b (bs s b ++ bitsMsb (arg s 0) (arg s 1)))

/-- BS_APPEND_BS (41 R104). -/
def execBsAppendBs (b : Buf) (s : State) : Result :=
  if (bs s b).length + (bs s b.other).length > Config.bsMaxBits then raiseError .bsFull s
  else complete (setBs s b (bs s b ++ bs s b.other))

/-- BS_XOR (41 R105). -/
def execBsXor (b : Buf) (s : State) : Result :=
  if (bs s b).length ≠ (bs s b.other).length then raiseError .xorLen s
  else complete (setBs s b (List.zipWith xor (bs s b) (bs s b.other)))

/-- BS_EXTRACT (41 R106): k = ARG0, n = ARG1, dst = ARG2. -/
def execBsExtract (b : Buf) (s : State) : Result :=
  if inCw (arg s 2) (arg s 1) = false then raiseError .cwBounds s
  else complete
    { s with cw := writeBytes s.cw (arg s 2) (extractBytes (arg s 1) ((bs s b).drop (8 * arg s 0))) }

/-- BS_GET_BIT (41 R107). -/
def execBsGetBit (b : Buf) (s : State) : Result :=
  if arg s 0 ≥ (bs s b).length then raiseError .bsIndex s
  else complete (setRes s 0 (resWord ((bs s b).getD (arg s 0) false).toNat))

/-- BS_APPEND_CW (41 R108): src = ARG0, n = ARG1. -/
def execBsAppendCw (b : Buf) (s : State) : Result :=
  if inCw (arg s 0) (arg s 1) = false then raiseError .cwBounds s
  else if (bs s b).length + 8 * arg s 1 > Config.bsMaxBits then raiseError .bsFull s
  else
    let r := readBytes s.cw (arg s 0) (arg s 1) s.draws
    complete { setBs s b (bs s b ++ bytesBits r.1) with draws := r.2 }

end Sys2Proof.Machine
end

