-- ==== Sys2Proof/Machine/Control.lean ====
section
/-! DEFINITION. The control command (40 R90). -/

namespace Sys2Proof.Machine

/-- NOP (40 R90): `complete`. -/
def execNop (s : State) : Result := complete s

end Sys2Proof.Machine
end

