-- ==== Sys2Proof/Machine/Matrix.lean ====
section
/-! DEFINITION. The matrix unit (45): matrix access, the mask formulas (R185), data placement (R187 to R191) and the four
penalty rules (R192 to R195), and their commands. x is the column from the left, y the row from the top (R180). -/

namespace Sys2Proof.Machine

/-! ## Mask formulas -/

/-- The formula's value t of 45 R185. -/
def maskFormula (m x y : Nat) : Nat :=
  match m with
  | 0 => (x + y) % 2
  | 1 => y % 2
  | 2 => x % 3
  | 3 => (x + y) % 3
  | 4 => (y / 2 + x / 3) % 2
  | 5 => (x * y) % 2 + (x * y) % 3
  | 6 => ((x * y) % 2 + (x * y) % 3) % 2
  | _ => ((x * y) % 3 + (x + y) % 2) % 2

/-- `maskbit(m, x, y)` (45 R185), m in 0..7: true means "invert". -/
def maskbit (m x y : Nat) : Bool := decide (maskFormula m x y = 0)

/-! ## Traversal -/

/-- The cells of the column pair (x, x - 1), the right one first, upward or downward (45 R187). -/
def columnPair (N x : Nat) (up : Bool) : List (Nat × Nat) :=
  (if up then (List.range N).reverse else List.range N).flatMap fun y => [(x, y), (x - 1, y)]

/-- The outer loop of 45 R187 from column x on; `fuel` bounds the passes. The last pair is (1, 0), after which the
rule's x is -1 and this one's is 0: both end the loop. -/
def traverseFrom (N : Nat) : Nat → Nat → Bool → List (Nat × Nat)
  | 0, _, _ => []
  | fuel + 1, x, up =>
    if x = 0 then []
    else
      let c := if x = 6 then 5 else x
      columnPair N c up ++ traverseFrom N fuel (c - 2) (!up)

/-- `traverse(N)` (45 R187). -/
def traverse (N : Nat) : List (Nat × Nat) := traverseFrom N N (N - 1) true

/-! ## Placement -/

/-- U of 45 R189: the UNSET cells outside column 6. -/
def fillable (g : List (List MxCell)) (N : Nat) : Nat :=
  ((List.range N).map fun y =>
    (List.range N).countP fun x => decide (x ≠ 6) && decide (cellAt g x y = .unset)).sum

/-- The value a cell takes from a bit under a mask (45 R190); `none` is mask -1. -/
def maskedBit (mask : Option Nat) (x y : Nat) (b : Bool) : Bool :=
  match mask with
  | none => b
  | some m => xor b (maskbit m x y)

/-- One step of the traversal (45 R188, R190): an UNSET cell consumes the next bit of the stream, 0 once the stream is
exhausted; any other cell is skipped. -/
def placeStep (mask : Option Nat) (st : List (List MxCell) × Bits) (p : Nat × Nat) : List (List MxCell) × Bits :=
  if cellAt st.1 p.1 p.2 = .unset then
    (setCell st.1 p.1 p.2 (cellOfBit (maskedBit mask p.1 p.2 (st.2.headD false))), st.2.tail)
  else st

/-- The matrix after placement of the bits (45 R191). -/
def place (mask : Option Nat) (N : Nat) (g : List (List MxCell)) (l : Bits) : List (List MxCell) :=
  ((traverse N).foldl (placeStep mask) (g, l)).1

/-! ## Penalty rules -/

/-- The lengths of the maximal runs of equal value of a line, in order (45 R192). `c` is the value of the run that is
open and `r` its length so far. -/
def runsFrom (c : MxCell) (r : Nat) : List MxCell → List Nat
  | [] => [r]
  | d :: l => if d = c then runsFrom c (r + 1) l else r :: runsFrom d 1 l

/-- The lengths of the maximal runs of a line (45 R192). -/
def runs : List MxCell → List Nat
  | [] => []
  | c :: l => runsFrom c 1 l

/-- What a run of length r adds (45 R192). -/
def runPenalty (r : Nat) : Nat := if r ≥ 5 then 3 + (r - 5) else 0

/-- Row y, and column x, of the matrix, as lines (45 R192). -/
def rowLine (g : List (List MxCell)) (N y : Nat) : List MxCell := (List.range N).map fun x => cellAt g x y

/-- Column x as a line. -/
def colLine (g : List (List MxCell)) (N x : Nat) : List MxCell := (List.range N).map fun y => cellAt g x y

/-- What a line adds to P1. -/
def linePenalty (l : List MxCell) : Nat := ((runs l).map runPenalty).sum

/-- P1 (45 R192). -/
def penalty1 (g : List (List MxCell)) (N : Nat) : Nat :=
  ((List.range N).map fun y => linePenalty (rowLine g N y)).sum
    + ((List.range N).map fun x => linePenalty (colLine g N x)).sum

/-- How many (x, y) with x < w and y < h have the property. -/
def countCells (w h : Nat) (p : Nat → Nat → Bool) : Nat :=
  ((List.range h).map fun y => (List.range w).countP fun x => p x y).sum

/-- The 2x2 window at (x, y) is of one value (45 R193). -/
def uniformBlock (g : List (List MxCell)) (x y : Nat) : Bool :=
  decide (cellAt g x y = cellAt g (x + 1) y) && decide (cellAt g x y = cellAt g x (y + 1))
    && decide (cellAt g x y = cellAt g (x + 1) (y + 1))

/-- P2 (45 R193). -/
def penalty2 (g : List (List MxCell)) (N : Nat) : Nat :=
  3 * countCells (N - 1) (N - 1) (uniformBlock g)

/-- PAT of 45 R194. -/
def finderPattern : List MxCell := [.dark, .light, .dark, .dark, .dark, .light, .dark]

/-- `light(x, y)` of 45 R194: a cell outside the matrix counts as light. -/
def lightAt (g : List (List MxCell)) (N : Nat) (x y : Int) : Bool :=
  decide (x < 0) || decide (x ≥ N) || decide (y < 0) || decide (y ≥ N)
    || decide (cellAt g x.toNat y.toNat = .light)

/-- A horizontal occurrence at (x, y) (45 R194). -/
def finderRow (g : List (List MxCell)) (N x y : Nat) : Bool :=
  ((List.range 7).all fun k => decide (cellAt g (x + k) y = finderPattern.getD k .unset))
    && (((List.range 4).all fun k => lightAt g N ((x : Int) - 4 + k) y)
      || ((List.range 4).all fun k => lightAt g N ((x : Int) + 7 + k) y))

/-- A vertical occurrence at (x, y) (45 R194). -/
def finderCol (g : List (List MxCell)) (N x y : Nat) : Bool :=
  ((List.range 7).all fun k => decide (cellAt g x (y + k) = finderPattern.getD k .unset))
    && (((List.range 4).all fun k => lightAt g N x ((y : Int) - 4 + k))
      || ((List.range 4).all fun k => lightAt g N x ((y : Int) + 7 + k)))

/-- P3 (45 R194). -/
def penalty3 (g : List (List MxCell)) (N : Nat) : Nat :=
  40 * countCells (N - 6) N (finderRow g N) + 40 * countCells N (N - 6) (finderCol g N)

/-- D of 45 R195: the dark cells. -/
def darkCount (g : List (List MxCell)) (N : Nat) : Nat := countCells N N fun x y => decide (cellAt g x y = .dark)

/-- P4 (45 R195). -/
def penalty4 (g : List (List MxCell)) (N : Nat) : Nat :=
  10 * ((((2 * darkCount g N : Nat) : Int) - ((N * N : Nat) : Int)).natAbs * 10 / (N * N))

/-- Some cell is UNSET (45 R197). -/
def someUnset (g : List (List MxCell)) (N : Nat) : Bool :=
  (List.range N).any fun y => (List.range N).any fun x => decide (cellAt g x y = .unset)

/-! ## Commands -/

/-- MX_CLEAR (45 R182): v = ARG0. -/
def execMxClear (s : State) : Result :=
  if arg s 0 < Config.verMin ∨ arg s 0 > Config.verMax then raiseError .range s
  else complete { s with
    mxVer := arg s 0
    grid := List.replicate (dim (arg s 0)) (List.replicate (dim (arg s 0)) .unset) }

/-- MX_SET (45 R183): x, y, code = ARG0 to ARG2. -/
def execMxSet (s : State) : Result :=
  match cellOfCode (arg s 2) with
  | none => raiseError .range s
  | some c =>
    if s.mxVer = 0 then raiseError .mxNodim s
    else if arg s 0 ≥ mxDim s ∨ arg s 1 ≥ mxDim s then raiseError .mxCoord s
    else complete { s with grid := setCell s.grid (arg s 0) (arg s 1) c }

/-- MX_GET (45 R184): x, y = ARG0, ARG1. -/
def execMxGet (s : State) : Result :=
  if s.mxVer = 0 then raiseError .mxNodim s
  else if arg s 0 ≥ mxDim s ∨ arg s 1 ≥ mxDim s then raiseError .mxCoord s
  else complete (setRes s 0 (resWord (cellCode (cellAt s.grid (arg s 0) (arg s 1)))))

/-- MX_PLACE (45 R191): mask = ARG0. -/
def execMxPlace (b : Buf) (s : State) : Result :=
  match maskOperand (arg s 0) with
  | none => raiseError .range s
  | some mask =>
    if s.mxVer = 0 then raiseError .mxNodim s
    else if (bs s b).length > fillable s.grid (mxDim s) then raiseError .placeLeftover s
    else
      complete (setRes (setRes (setRes { s with grid := place mask (mxDim s) s.grid (bs s b) }
        0 (resWord (bs s b).length))
        1 (resWord (fillable s.grid (mxDim s) - (bs s b).length)))
        2 (resWord (fillable s.grid (mxDim s))))

/-- MX_SCORE (45 R196). -/
def execMxScore (s : State) : Result :=
  if s.mxVer = 0 then raiseError .mxNodim s
  else if someUnset s.grid (mxDim s) = true then raiseError .mxUnset s
  else
    let p1 := penalty1 s.grid (mxDim s)
    let p2 := penalty2 s.grid (mxDim s)
    let p3 := penalty3 s.grid (mxDim s)
    let p4 := penalty4 s.grid (mxDim s)
    complete (setRes (setRes (setRes (setRes (setRes s
      0 (resWord (p1 + p2 + p3 + p4))) 1 (resWord p1)) 2 (resWord p2)) 3 (resWord p3)) 4 (resWord p4))

/-- MX_MASKBIT (45 R186): m, x, y = ARG0 to ARG2. -/
def execMxMaskbit (s : State) : Result :=
  if arg s 0 > 7 ∨ arg s 1 > 176 ∨ arg s 2 > 176 then raiseError .range s
  else complete (setRes s 0 (resWord (maskbit (arg s 0) (arg s 1) (arg s 2)).toNat))

end Sys2Proof.Machine
end

