-- ==== Sys2Proof/Machine/Poly.lean ====
section
/-! DEFINITION. The polynomial and Reed–Solomon unit (43). A polynomial is its coefficient sequence, highest degree
first (00 R7); a polynomial operand is a CWRAM region (43 R140). -/

namespace Sys2Proof.Machine

/-! ## Polynomials -/

/-- `polymul(A, B)[k]` (43 R143): the sum over i + j = k of A[i] B[j]. -/
def polymulCoeff (A B : List Byte) (k : Nat) : Byte :=
  (List.range B.length).foldl
    (fun acc j => if j ≤ k ∧ k - j < A.length then gfadd acc (gfmul (A.getD (k - j) 0#8) (B.getD j 0#8)) else acc)
    0#8

/-- `polymul(A, B)` (43 R143): exactly n + m - 1 coefficients. -/
def polymul (A B : List Byte) : List Byte :=
  (List.range (A.length + B.length - 1)).map (polymulCoeff A B)

/-- The generator polynomial g_e (43 R141), generator base 0 (00 R3). -/
def generator (e : Nat) : List Byte :=
  (List.range e).foldl (fun g d => polymul g [1#8, gfexp d]) [1#8]

/-- The number of leading zero coefficients. -/
def leadingZeros : List Byte → Nat
  | [] => 0
  | c :: cs => if c = 0#8 then leadingZeros cs + 1 else 0

/-- r with v added into it from index i on. -/
def addAt : Nat → List Byte → List Byte → List Byte
  | _, [], _ => []
  | 0, r, [] => r
  | 0, c :: r, u :: v => gfadd c u :: addAt 0 r v
  | i + 1, c :: r, v => c :: addAt i r v

/-- One pass of the division loop of 43 R145, at index i: `f <- gfmul(r[i], li)`, and f·B' is added from i on. -/
def divStep (B : List Byte) (li : Byte) (r : List Byte) (i : Nat) : List Byte :=
  if r.getD i 0#8 = 0#8 then r else addAt i r (B.map (gfmul (gfmul (r.getD i 0#8) li)))

/-- The working copy r when the division loop of 43 R145 ends: A divided by B', whose first coefficient is not 0. -/
def divLoop (A B : List Byte) : List Byte :=
  (List.range (A.length + 1 - B.length)).foldl (divStep B (gfinv (B.getD 0 0#8))) A

/-- The coefficient of x^d in r. -/
def coeffOf (r : List Byte) (d : Nat) : Byte :=
  if d < r.length then r.getD (r.length - 1 - d) 0#8 else 0#8

/-- `polymod(A, B)` (43 R145): exactly m - 1 coefficients. -/
def polymod (A B : List Byte) : List Byte :=
  let r := divLoop A (B.drop (leadingZeros B))
  (List.range (B.length - 1)).map fun j => coeffOf r (B.length - 2 - j)

/-- `rsec(D, e)` (43 R147): the error-correction codewords. -/
def rsec (D : List Byte) (e : Nat) : List Byte := polymod (D ++ List.replicate e 0#8) (generator e)

/-! ## Commands -/

/-- RS_GEN (43 R142): e = ARG0, dst = ARG1. -/
def execRsGen (s : State) : Result :=
  if arg s 0 > Config.ecMax then raiseError .range s
  else if inCw (arg s 1) (arg s 0 + 1) = false then raiseError .cwBounds s
  else complete { s with cw := writeBytes s.cw (arg s 1) (generator (arg s 0)) }

/-- POLY_MUL (43 R144): aoff, alen, boff, blen, roff = ARG0 to ARG4. -/
def execPolyMul (s : State) : Result :=
  if arg s 1 = 0 ∨ arg s 3 = 0 then raiseError .range s
  else if inCw (arg s 0) (arg s 1) = false then raiseError .cwBounds s
  else if inCw (arg s 2) (arg s 3) = false then raiseError .cwBounds s
  else if inCw (arg s 4) (arg s 1 + arg s 3 - 1) = false then raiseError .cwBounds s
  else if overlap (arg s 4) (arg s 1 + arg s 3 - 1) (arg s 0) (arg s 1) = true
      ∨ overlap (arg s 4) (arg s 1 + arg s 3 - 1) (arg s 2) (arg s 3) = true then raiseError .overlap s
  else
    let A := readBytes s.cw (arg s 0) (arg s 1) s.draws
    let B := readBytes s.cw (arg s 2) (arg s 3) A.2
    complete { s with cw := writeBytes s.cw (arg s 4) (polymul A.1 B.1), draws := B.2 }

/-- POLY_MOD (43 R146): aoff, alen, boff, blen, roff = ARG0 to ARG4. B is read, and tested for 0, before A is read. -/
def execPolyMod (s : State) : Result :=
  if arg s 1 = 0 ∨ arg s 3 = 0 then raiseError .range s
  else if inCw (arg s 0) (arg s 1) = false then raiseError .cwBounds s
  else if inCw (arg s 2) (arg s 3) = false then raiseError .cwBounds s
  else if inCw (arg s 4) (arg s 3 - 1) = false then raiseError .cwBounds s
  else if overlap (arg s 4) (arg s 3 - 1) (arg s 0) (arg s 1) = true
      ∨ overlap (arg s 4) (arg s 3 - 1) (arg s 2) (arg s 3) = true then raiseError .overlap s
  else
    let B := readBytes s.cw (arg s 2) (arg s 3) s.draws
    if B.1.all (· == 0#8) = true then raiseError .divZero { s with draws := B.2 }
    else
      let A := readBytes s.cw (arg s 0) (arg s 1) B.2
      complete { s with cw := writeBytes s.cw (arg s 4) (polymod A.1 B.1), draws := A.2 }

/-- RS_ENC (43 R148): doff, dlen, e, eoff = ARG0 to ARG3. -/
def execRsEnc (s : State) : Result :=
  if arg s 2 = 0 then raiseError .rsNoEc s
  else if arg s 1 = 0 then raiseError .rsNoData s
  else if arg s 2 > Config.ecMax then raiseError .range s
  else if inCw (arg s 0) (arg s 1) = false then raiseError .cwBounds s
  else if inCw (arg s 3) (arg s 2) = false then raiseError .cwBounds s
  else if overlap (arg s 3) (arg s 2) (arg s 0) (arg s 1) = true then raiseError .overlap s
  else
    let D := readBytes s.cw (arg s 0) (arg s 1) s.draws
    complete { s with cw := writeBytes s.cw (arg s 3) (rsec D.1 (arg s 2)), draws := D.2 }

end Sys2Proof.Machine
end

