-- ==== Sys2Proof/Machine/Dispatch.lean ====
section
/-! DEFINITION. One arm per command: the pseudocode that runs after the decode has succeeded (40, 60 R212). -/

namespace Sys2Proof.Machine

def exec (i : Instr) (s : State) : Host.Outcome State Fault Refusal :=
  match i with
  | .nop => Sys2Proof.Machine.execNop s
  | .bsClear b => Sys2Proof.Machine.execBsClear b s
  | .bsAppendBit b => Sys2Proof.Machine.execBsAppendBit b s
  | .bsAppendBits b => Sys2Proof.Machine.execBsAppendBits b s
  | .bsAppendBs b => Sys2Proof.Machine.execBsAppendBs b s
  | .bsXor b => Sys2Proof.Machine.execBsXor b s
  | .bsExtract b => Sys2Proof.Machine.execBsExtract b s
  | .bsGetBit b => Sys2Proof.Machine.execBsGetBit b s
  | .bsAppendCw b => Sys2Proof.Machine.execBsAppendCw b s
  | .gfAdd => Sys2Proof.Machine.execGfAdd s
  | .gfMul => Sys2Proof.Machine.execGfMul s
  | .gfInv => Sys2Proof.Machine.execGfInv s
  | .gfExp => Sys2Proof.Machine.execGfExp s
  | .gfLog => Sys2Proof.Machine.execGfLog s
  | .rsGen => Sys2Proof.Machine.execRsGen s
  | .polyMul => Sys2Proof.Machine.execPolyMul s
  | .polyMod => Sys2Proof.Machine.execPolyMod s
  | .rsEnc => Sys2Proof.Machine.execRsEnc s
  | .bchCode => Sys2Proof.Machine.execBchCode s
  | .fmtInfo => Sys2Proof.Machine.execFmtInfo s
  | .verInfo => Sys2Proof.Machine.execVerInfo s
  | .mxClear => Sys2Proof.Machine.execMxClear s
  | .mxSet => Sys2Proof.Machine.execMxSet s
  | .mxGet => Sys2Proof.Machine.execMxGet s
  | .mxPlace b => Sys2Proof.Machine.execMxPlace b s
  | .mxScore => Sys2Proof.Machine.execMxScore s
  | .mxMaskbit => Sys2Proof.Machine.execMxMaskbit s

end Sys2Proof.Machine
end

