-- ==== Sys2Proof/Machine/HostAccess.lean ====
section
/-! DEFINITION. The host's side: the register map (10 R20), reads and writes of each register and of the CWRAM window
(10 R21 to R29, R39, 20 R52, R53), the hazards while busy (70 R247, R248), and one clock edge of the ports (20 R50,
R54). -/

namespace Sys2Proof.Machine

/-- What a word-aligned offset reaches (10 R20). -/
inductive Reg where
  | id | rev | paramBs | paramCw | paramEc | ctrl | status | cmd
  | arg (i : Fin 6)
  | res (i : Fin 5)
  | bsaLen | bsbLen | mxVer | mxDim
  /-- The CWRAM window: CW[i]. -/
  | cw (i : Nat)
  /-- An offset not in the map (10 R39). -/
  | reserved
  deriving DecidableEq, Repr

/-- The register map (10 R20) on a byte offset. -/
def regOfOffset (n : Nat) : Reg :=
  match n with
  | 0x000 => .id
  | 0x004 => .rev
  | 0x008 => .paramBs
  | 0x00C => .paramCw
  | 0x010 => .paramEc
  | 0x014 => .ctrl
  | 0x018 => .status
  | 0x01C => .cmd
  | 0x020 => .arg 0
  | 0x024 => .arg 1
  | 0x028 => .arg 2
  | 0x02C => .arg 3
  | 0x030 => .arg 4
  | 0x034 => .arg 5
  | 0x040 => .res 0
  | 0x044 => .res 1
  | 0x048 => .res 2
  | 0x04C => .res 3
  | 0x050 => .res 4
  | 0x060 => .bsaLen
  | 0x064 => .bsbLen
  | 0x068 => .mxVer
  | 0x06C => .mxDim
  | n => if 0x4000 ≤ n ∧ n < 0x4000 + 4 * Config.cwMax ∧ n % 4 = 0 then .cw ((n - 0x4000) / 4) else .reserved

/-- The register at a bus address (10 R20). -/
def regAt (a : BitVec 16) : Reg := regOfOffset a.toNat

/-- A read that is unspecified while BUSY = 1 (70 R248): the word, and the draw counter after. -/
def readIdle (s : State) (v : Word) : Word × Nat :=
  if s.busy then (Config.freeWord s.draws, s.draws + 1) else (v, s.draws)

/-- A read of CW[i] through the window (20 R52): bits [31:8] are 0. While BUSY = 1 the byte is a draw (70 R248). -/
def readWindow (s : State) (i : Nat) : Word × Nat :=
  if s.busy then ((Config.freeByte s.draws).setWidth 32, s.draws + 1)
  else ((readByte s.cw i s.draws).1.setWidth 32, (readByte s.cw i s.draws).2)

/-- The word a host read gives (10 R21 to R29, R39, 20 R52, 70 R248), and the draw counter after. -/
def readReg (r : Reg) (s : State) : Word × Nat :=
  match r with
  | .id => (Config.idValue, s.draws)
  | .rev => (Config.revValue, s.draws)
  | .paramBs => (BitVec.ofNat 32 Config.bsMaxBits, s.draws)
  | .paramCw => (BitVec.ofNat 32 Config.cwMax, s.draws)
  | .paramEc => (BitVec.ofNat 32 Config.ecMax, s.draws)
  | .ctrl => (ctrlWord s, s.draws)
  | .status => (statusWord s, s.draws)
  | .cmd => (s.cmd, s.draws)
  | .arg i => (s.args.get i, s.draws)
  | .res i => readIdle s (s.res.get i)
  | .bsaLen => readIdle s (BitVec.ofNat 32 s.bsA.length)
  | .bsbLen => readIdle s (BitVec.ofNat 32 s.bsB.length)
  | .mxVer => readIdle s (BitVec.ofNat 32 s.mxVer)
  | .mxDim => readIdle s (BitVec.ofNat 32 (mxDim s))
  | .cw i => readWindow s i
  | .reserved => (0#32, s.draws)

/-- A host read (20 R61): no side effect; the word appears on bus_rdata. -/
def hostRead (r : Reg) (s : State) : State :=
  { s with rdata := (readReg r s).1, draws := (readReg r s).2 }

/-- A host write of CTRL (10 R24): SRST = 1 resets and discards the IE written; otherwise IE takes bit [0]. -/
def writeCtrl (w : Word) (s : State) : State :=
  if w.getLsbD 1 then softReset s else { s with ie := w.getLsbD 0 }

/-- A host write that is dropped while BUSY = 1 and then sets OVR (70 R247). -/
def writeIdle (s t : State) : State := if s.busy then overrun s else t

/-- A host write (10 R24 to R29, R39, 20 R53, 70 R247). -/
def hostWrite (r : Reg) (w : Word) (s : State) : State :=
  match r with
  | .ctrl => writeCtrl w s
  | .status => writeStatus w s
  | .cmd => writeIdle s (issue w s)
  | .arg i => writeIdle s { s with args := s.args.set i w }
  | .cw i => writeIdle s { s with cw := cwSet s.cw i (w.setWidth 8) }
  | .id => s
  | .rev => s
  | .paramBs => s
  | .paramCw => s
  | .paramEc => s
  | .res _ => s
  | .bsaLen => s
  | .bsbLen => s
  | .mxVer => s
  | .mxDim => s
  | .reserved => s

/-- A single-beat 32-bit access at a word-aligned offset (20 R54). -/
def supportedAccess (p : PortInput) : Bool :=
  (p.we != p.re) && decide (p.size = 0b10#2) && decide (p.addr.toNat % 4 = 0)

/-- One clock edge with these inputs (20 R50): a hard reset (70 R240), nothing, a refusal (60 R229), a write or a
read. -/
def portCycle (p : PortInput) (s : State) : Result :=
  if p.rst then
    if p.we || p.re then .refused .accessDuringReset else .next (hardReset s)
  else if !(p.we || p.re) then .next s
  else if p.otherHost then .refused .secondHost
  else if !supportedAccess p then .refused .unsupportedAccess
  else if p.we then .next (hostWrite (regAt p.addr) p.wdata s)
  else .next (hostRead (regAt p.addr) s)

/-- The host's turn: it does its next operation (20 R62), or nothing if it has none (60 R227). While the engine is busy
each operation brings the engine's transition one nearer. A WAIT that is not blocked reads STATUS once (30 R78). -/
def hostStep (s : State) : Result :=
  match s.bus with
  | [] => .next s
  | .cycle p :: l => portCycle p { s with bus := l, wait := s.wait - 1 }
  | .wait :: l => .next (hostRead .status { s with bus := l, wait := s.wait - 1 })

end Sys2Proof.Machine
end

