-- ==== Sys2Proof/Machine/Engine.lean ====
section
/-! DEFINITION. The engine's side: its transition (60 R212, R213), when it is the one to move (70 R252, R253), and the
issue that places a given word as the engine's next command. -/

namespace Sys2Proof.Machine

/-- The host has nothing to do before the engine's transition: no operation at all, or a WAIT (30 R78). -/
def hostWaits (s : State) : Bool :=
  match s.bus with
  | [] => true
  | .wait :: _ => true
  | .cycle _ :: _ => false

/-- The engine moves: a command is in flight (60 R212) and either the host waits for it or its latency is over
(70 R253). -/
def engineTurn (s : State) : Bool := s.busy && (hostWaits s || decide (s.wait = 0))

/-- The engine's transition (60 R212, R213): decode CMD (30 R71), then run the command. -/
def engineStep (s : State) : Result :=
  match decodeWord s.cmd with
  | .error _ => raiseError .illegal s
  | .ok i => exec i s

/-- The word stands issued (60 R211) and the engine's transition is due at once. -/
def issueNow (w : Word) (s : State) : State :=
  { s with cmd := w, done := false, err := false, errcode := 0x00#8, busy := true, wait := 0 }

end Sys2Proof.Machine
end

