-- ==== Sys2Proof/Machine/Step.lean ====
section
/-! DEFINITION. One step of the block: the engine's transition or the host's next operation (00 R4, 20 R62). -/

namespace Sys2Proof.Machine

/-- One step (00 R4): of the engine when it is its turn, else of the host. -/
def step (s : State) : Host.Outcome State Fault Refusal :=
  if engineTurn s then engineStep s else hostStep s

/-- The block fetches nothing (10 R30): a command reaches the engine by an issue (60 R211). This places the word as
issued, its transition due in the very next step (log entry 3). -/
def State.withFetchWord (s : State) (nbits w : Nat) : State :=
  issueNow (BitVec.ofNat 32 (w % 2 ^ nbits)) s

end Sys2Proof.Machine
end

