-- ==== Sys2Proof/Machine/HostSyntax.lean ====
section
/-! DEFINITION. The host assembler syntax (30 R77, R78): what a command statement and the pseudo-instructions expand to,
as host operations. EXPECT_OK and EXPECT_ERR are assertions of the host program about STATUS (30 R78). -/

namespace Sys2Proof.Machine

/-- `WR r, v` (30 R78): one host write to a byte offset. -/
def wr (off : Nat) (v : Word) : HostOp :=
  .cycle { we := true, addr := BitVec.ofNat 16 off, wdata := v }

/-- `RD r` (30 R78): one host read of a byte offset. -/
def rd (off : Nat) : HostOp :=
  .cycle { re := true, addr := BitVec.ofNat 16 off }

/-- The ARG writes of a command statement from ARGj on (30 R77). -/
def wrArgs : Nat → List Word → List HostOp
  | _, [] => []
  | j, v :: vs => wr (0x020 + 4 * j) v :: wrArgs (j + 1) vs

/-- `ISSUE MNEMONIC[.A|.B] ops` (30 R78): the command statement without its final WAIT. -/
def issueStatement (i : Instr) (ops : List Word) : List HostOp := wrArgs 0 ops ++ [wr 0x01C (encode i)]

/-- A command statement (30 R77): the operands written, the command word, WAIT. -/
def commandStatement (i : Instr) (ops : List Word) : List HostOp := issueStatement i ops ++ [.wait]

/-- `POKE i, b0, …` (30 R78). -/
def poke : Nat → List Byte → List HostOp
  | _, [] => []
  | i, b :: l => wr (0x4000 + 4 * i) (b.setWidth 32) :: poke (i + 1) l

/-- `PEEK i, n` (30 R78). -/
def peek : Nat → Nat → List HostOp
  | _, 0 => []
  | i, n + 1 => rd (0x4000 + 4 * i) :: peek (i + 1) n

/-- `EXPECT_OK` (30 R78) holds of the STATUS word read: ERR is clear. -/
def expectOk (t : Word) : Bool := !t.getLsbD 2

/-- `EXPECT_ERR code` (30 R78) holds of the STATUS word read: ERR is set and ERRCODE is the code. -/
def expectErr (c : BitVec 8) (t : Word) : Bool := t.getLsbD 2 && decide (t.extractLsb' 8 8 = c)

end Sys2Proof.Machine
end

