-- ==== Sys2Proof/Safety.lean ====
section
/-! DEFINITION. The terms the claims use: the two completions and the effect of a store written out from the spec, what a
CWRAM read may give, the invariant, and independent forms of the field and polynomial rules. -/

namespace Sys2Proof.Safety

open Sys2Proof.Machine

/-! ## Completions -/

/-- The state after a success completion (60 R212) of a command whose writes gave `s`. The last field is the model's:
no transition is waited for. -/
def okState (s : State) : State :=
  { s with busy := false, done := true, err := false, errcode := 0x00#8, wait := 0 }

/-- The state after an error completion (60 R213) with the code `c` (60 R214). -/
def errState (c : BitVec 8) (s : State) : State :=
  { s with busy := false, done := true, err := true, errcode := c, wait := 0 }

/-! ## CWRAM -/

/-- `v` is what a read of the CWRAM region (off, n) may give: a byte that has been written is as written, any other byte
is free (70 R246). -/
def ReadsRegion (s : State) (off n : Nat) (v : List Byte) : Prop :=
  v.length = n ∧ ∀ j < n, ∀ c, cwGet? s.cw (off + j) = some c → v[j]? = some c

/-- Every byte of the region (off, n) has been written. -/
def Written (s : State) (off n : Nat) : Prop := ∀ j < n, (cwGet? s.cw (off + j)).isSome = true

/-- From `s` to `t` the bytes `v` were stored from `off` on, and every byte outside them is as before. -/
def Stores (s t : State) (off : Nat) (v : List Byte) : Prop :=
  (∀ j < v.length, cwGet? t.cw (off + j) = v[j]?)
    ∧ ∀ a, a < off ∨ off + v.length ≤ a → cwGet? t.cw a = cwGet? s.cw a

/-- The region (off, n) is in bounds (20 R58). -/
def InCw (off n : Nat) : Prop := off + n ≤ 4096

/-- Two regions overlap (20 R59). -/
def Overlaps (o1 n1 o2 n2 : Nat) : Prop := n1 > 0 ∧ n2 > 0 ∧ o1 < o2 + n2 ∧ o2 < o1 + n1

/-! ## The invariant -/

/-- The matrix has the shape its version gives it: DIM rows of DIM cells, none without a version (10 R34, R35). -/
def GridOk (s : State) : Prop :=
  s.mxVer ≤ 40 ∧ s.grid.length = mxDim s ∧ ∀ r ∈ s.grid, r.length = mxDim s

/-- Each buffer holds at most BS_MAX_BITS bits (10 R31). -/
def BuffersOk (s : State) : Prop := s.bsA.length ≤ 32768 ∧ s.bsB.length ≤ 32768

/-- STATUS is one that the life cycle of a command gives (10 R25, 60 R211 to R214): while busy no outcome shows, ERR
and ERRCODE agree, and ERRCODE is a code of the table. The last clause is the model's. -/
def StatusOk (s : State) : Prop :=
  (s.busy = true → s.done = false ∧ s.err = false) ∧ (s.err = true ↔ s.errcode ≠ 0x00#8)
    ∧ s.errcode.toNat ≤ 0x11 ∧ (s.busy = false → s.wait = 0)

/-- The invariant of the block: every step keeps it. -/
def Inv (s : State) : Prop := Memory.wf s.cw ∧ BuffersOk s ∧ GridOk s ∧ StatusOk s

/-! ## Independent forms of the rules -/

/-- `exp[i+1] = exp[i]*2`, reduced by 0x11D when it overflows (42 R120). -/
def timesTwo (t : Nat) : Nat := if 2 * t ≥ 256 then (2 * t) ^^^ 0x11D else 2 * t

/-- The carry-less product of two polynomials over GF(2), bit i the coefficient of x^i (44 R160). -/
def carryless (q p : Nat) : Nat :=
  (List.range (bitlen q)).foldl (fun acc i => if q.testBit i then acc ^^^ (p <<< i) else acc) 0

/-- One byte of the shift-register form (43 R149): `f <- d ⊕ r[0]`, shift, add f times g[1..e]. -/
def shiftStep (g : List Byte) (r : List Byte) (d : Byte) : List Byte :=
  List.zipWith (fun u c => u ^^^ gfmul c (d ^^^ r.getD 0 0#8)) (r.tail ++ [0#8]) g.tail

/-- The shift-register form of the error-correction codewords (43 R149). -/
def shiftRegister (D : List Byte) (e : Nat) : List Byte :=
  D.foldl (shiftStep (generator e)) (List.replicate e 0#8)

/-- The host operation is no reset and no access outside the contract, so it leaves a command in flight alone
(70 R243, 60 R229). -/
def Harmless (p : PortInput) : Prop :=
  p.rst = false ∧ p.otherHost = false ∧ (p.we = false ∧ p.re = false ∨ supportedAccess p = true)
    ∧ ¬(p.we = true ∧ regAt p.addr = .ctrl ∧ p.wdata.getLsbD 1 = true)

/-! ## Words and accesses -/

/-- The words of an opcode marked "S" (30 R70, R74): S = 0 selects BS[A], S = 1 selects BS[B]. -/
def SelWords (op : Nat) (i : Buf → Instr) : Prop :=
  decodeWord (BitVec.ofNat 32 op) = .ok (i .A) ∧ decodeWord (BitVec.ofNat 32 (op + 256)) = .ok (i .B)

/-- The word of an opcode not marked "S" (30 R70, R71): legal with S = 0 only. -/
def PlainWord (op : Nat) (i : Instr) : Prop :=
  decodeWord (BitVec.ofNat 32 op) = .ok i ∧ ∃ e, decodeWord (BitVec.ofNat 32 (op + 256)) = .error e

/-- The port inputs of one 32-bit read at a byte offset (20 R50). -/
def readAt (off : Nat) : PortInput := { re := true, addr := BitVec.ofNat 16 off }

/-- The port inputs of one 32-bit write at a byte offset (20 R50). -/
def writeAt (off : Nat) (v : Word) : PortInput := { we := true, addr := BitVec.ofNat 16 off, wdata := v }

/-! ## The outputs column of the opcode map (30 R74) -/

/-- The buffer a command writes. -/
def writesBs : Instr → Option Buf
  | .bsClear b => some b
  | .bsAppendBit b => some b
  | .bsAppendBits b => some b
  | .bsAppendBs b => some b
  | .bsXor b => some b
  | .bsAppendCw b => some b
  | .bsExtract _ => none
  | .bsGetBit _ => none
  | .nop => none
  | .gfAdd => none
  | .gfMul => none
  | .gfInv => none
  | .gfExp => none
  | .gfLog => none
  | .rsGen => none
  | .polyMul => none
  | .polyMod => none
  | .rsEnc => none
  | .bchCode => none
  | .fmtInfo => none
  | .verInfo => none
  | .mxClear => none
  | .mxSet => none
  | .mxGet => none
  | .mxPlace _ => none
  | .mxScore => none
  | .mxMaskbit => none

/-- The commands that write CWRAM. -/
def writesCw (i : Instr) : Bool :=
  match i with
  | .bsExtract _ => true
  | .rsGen => true
  | .polyMul => true
  | .polyMod => true
  | .rsEnc => true
  | _ => false

/-- The commands that write cells. -/
def writesCells (i : Instr) : Bool :=
  match i with
  | .mxClear => true
  | .mxSet => true
  | .mxPlace _ => true
  | _ => false

/-- The command may write cell (x, y) of the matrix that `s` holds (45 R182, R183, R188): MX_CLEAR every cell, MX_SET the
cell its operands name, MX_PLACE an UNSET cell outside column 6. -/
def WritesCell (i : Instr) (s : State) (x y : Nat) : Prop :=
  match i with
  | .mxClear => True
  | .mxSet => x = arg s 0 ∧ y = arg s 1
  | .mxPlace _ => cellAt s.grid x y = .unset ∧ x ≠ 6 ∧ x < mxDim s ∧ y < mxDim s
  | _ => False

/-- The RES registers a command writes. -/
def writesRes (i : Instr) : List (Fin 5) :=
  match i with
  | .bsGetBit _ => [0]
  | .gfAdd => [0]
  | .gfMul => [0]
  | .gfInv => [0]
  | .gfExp => [0]
  | .gfLog => [0]
  | .bchCode => [0, 1]
  | .fmtInfo => [0, 1, 2]
  | .verInfo => [0, 1]
  | .mxGet => [0]
  | .mxPlace _ => [0, 1, 2]
  | .mxScore => [0, 1, 2, 3, 4]
  | .mxMaskbit => [0]
  | _ => []

/-- How many ARG operands a command reads (30 R74). -/
def operandCount : Instr → Nat
  | .nop => 0
  | .bsClear _ => 0
  | .bsAppendBit _ => 1
  | .bsAppendBits _ => 2
  | .bsAppendBs _ => 0
  | .bsXor _ => 0
  | .bsExtract _ => 3
  | .bsGetBit _ => 1
  | .bsAppendCw _ => 2
  | .gfAdd => 2
  | .gfMul => 2
  | .gfInv => 1
  | .gfExp => 1
  | .gfLog => 1
  | .rsGen => 2
  | .polyMul => 5
  | .polyMod => 5
  | .rsEnc => 4
  | .bchCode => 2
  | .fmtInfo => 2
  | .verInfo => 1
  | .mxClear => 1
  | .mxSet => 3
  | .mxGet => 2
  | .mxPlace _ => 1
  | .mxScore => 0
  | .mxMaskbit => 3

/-- The ARG registers after the writes of a command statement (30 R77). -/
def argsAfter : ArgRegs → Nat → List Word → ArgRegs
  | a, _, [] => a
  | a, j, v :: vs => argsAfter (if h : j < 6 then a.set ⟨j, h⟩ v else a) (j + 1) vs

end Sys2Proof.Safety
end

