-- ==== Sys2Proof/Certificates/Slice0/Obligations.lean ====
section
/-! DEFINITION. The statements for the provers. Each docstring names the rule of spec/ it formalises. `okState` and
`errState` (Safety) are the two completions of 60 R212 and R213, written out. -/

open Sys2Proof Sys2Proof.Machine Sys2Proof.Safety

/-! ## Encoding -/

/-- Words written out from 30 R70, R74 and R75 decode to what they stand for. -/
def Obligations.WordsFromTheSpecDecode : Prop :=
  decodeWord 0x00000000#32 = .ok .nop ∧ decodeWord 0x00000010#32 = .ok (.bsClear .A)
    ∧ decodeWord 0x00000110#32 = .ok (.bsClear .B) ∧ decodeWord 0x00000021#32 = .ok .gfMul
    ∧ decodeWord 0x00000033#32 = .ok .rsEnc ∧ decodeWord 0x00000040#32 = .ok .bchCode
    ∧ decodeWord 0x00000153#32 = .ok (.mxPlace .B) ∧ decodeWord 0x00000054#32 = .ok .mxScore
    ∧ decodeWord 0x00000100#32 = .error .selOnPlainOp ∧ decodeWord 0x00000200#32 = .error .reservedBits
    ∧ decodeWord 0x80000010#32 = .error .reservedBits ∧ decodeWord 0x00000018#32 = .error .reservedOp
    ∧ decodeWord 0x000000FF#32 = .error .reservedOp

/-- The decoder and the encoder agree on every word and every command, in both directions (30 R70, R71, R74). -/
def Obligations.DecodeAndEncodeAgree : Prop :=
  ∀ (w : Word) (i : Instr), decodeWord w = .ok i ↔ encode i = w

/-- 30 R79: the legal words are 36, namely `0x000000OP` for the 18 opcodes without S, and `0x000000OP` and `0x000001OP`
for the 9 with S. -/
def Obligations.LegalWordsAreThirtySix : Prop :=
  ∃ l : List Word,
    l = plainOpcodes.map (BitVec.ofNat 32)
        ++ selOpcodes.flatMap (fun op => [BitVec.ofNat 32 op, BitVec.ofNat 32 (op + 0x100)])
      ∧ plainOpcodes.length = 18 ∧ selOpcodes.length = 9 ∧ l.length = 36 ∧ l.Nodup
      ∧ ∀ w : Word, (∃ i, decodeWord w = .ok i) ↔ w ∈ l

/-- 30 R75: a word with a reserved OP, with w[31:9] ≠ 0, or with S = 1 on an opcode not marked S ends in ILLEGAL; every
other word decodes to exactly one command. -/
def Obligations.IllegalWordsEndInIllegal : Prop :=
  ∀ s : State,
    let op := s.cmd.toNat % 256
    let bad := s.cmd.toNat / 512 ≠ 0
      ∨ (0x01 ≤ op ∧ op ≤ 0x0F) ∨ (0x18 ≤ op ∧ op ≤ 0x1F) ∨ (0x25 ≤ op ∧ op ≤ 0x2F) ∨ (0x34 ≤ op ∧ op ≤ 0x3F)
      ∨ (0x43 ≤ op ∧ op ≤ 0x4F) ∨ (0x56 ≤ op ∧ op ≤ 0xFF)
      ∨ (s.cmd.getLsbD 8 = true ∧ ¬(0x10 ≤ op ∧ op ≤ 0x17) ∧ op ≠ 0x53)
    (bad → engineStep s = .next (errState 0x01#8 s)) ∧ (¬bad → ∃! i, decodeWord s.cmd = .ok i)

/-! ## Steps -/

/-- When a command is in flight and the engine's transition is due, the step is that transition: the decoded command's
meaning (60 R212), or the error completion ILLEGAL for a word that is no command (30 R71, 60 R213). THE MODEL'S CHOICE: that
the transition is due as soon as the host has no operation left or WAITs, or its latency is over (log entry 2), and that
`withFetchWord` stands for an issue whose transition is due in the very next step (log entry 3). -/
def Obligations.StepRunsTheDecodedCommand : Prop :=
  (∀ s : State, s.busy = true → (s.bus = [] ∨ (∃ l, s.bus = .wait :: l) ∨ s.wait = 0) →
      step s = engineStep s
        ∧ (∀ i, decodeWord s.cmd = .ok i → step s = exec i s)
        ∧ ∀ e, decodeWord s.cmd = .error e → step s = .next (errState 0x01#8 s))
    ∧ ∀ (s : State) (w : Nat),
      (s.withFetchWord 32 w).cmd = BitVec.ofNat 32 w
        ∧ (∀ i, decodeTableWord 32 w = some i → step (s.withFetchWord 32 w) = exec i (s.withFetchWord 32 w))
        ∧ (decodeTableWord 32 w = none →
          step (s.withFetchWord 32 w) = .next (errState 0x01#8 (s.withFetchWord 32 w)))

/-- In every other state the step is the host's (20 R62): nothing when it has nothing to do (60 R227), its next clock edge,
or the STATUS read that ends a WAIT (30 R78). THE MODEL'S CHOICE: the counter `wait`, one less at each operation (log
entry 2), the queue `bus` (log entry 3), and a WAIT as one item of it (log entry 6). -/
def Obligations.StepIsTheHostsOtherwise : Prop :=
  ∀ s : State, (s.busy = false ∨ (s.wait ≠ 0 ∧ ∃ p l, s.bus = .cycle p :: l)) →
    (s.bus = [] → step s = .next s)
      ∧ (∀ p l, s.bus = .cycle p :: l → step s = portCycle p { s with bus := l, wait := s.wait - 1 })
      ∧ ∀ l, s.bus = .wait :: l →
        step s = .next { s with bus := l, wait := s.wait - 1, rdata := statusWord s }

/-! ## The commands: encoding, success, errors in their order -/

/-- 40 R90: NOP changes nothing but STATUS; its completion raises irq exactly when IE is set. -/
def Obligations.NopCompletes : Prop :=
  PlainWord 0x00 .nop ∧ ∀ s : State, exec .nop s = .next (okState s) ∧ irq (okState s) = s.ie
    ∧ (s.ovr = false → statusWord (okState s) = 0x00000002#32)

/-- 41 R101, R102: BS_CLEAR empties the buffer; BS_APPEND_BIT appends the bit, or fails with RANGE, then BS_FULL. -/
def Obligations.BsClearAndAppendBit : Prop :=
  SelWords 0x10 .bsClear ∧ SelWords 0x11 .bsAppendBit
    ∧ ∀ (b : Buf) (s : State),
      exec (.bsClear b) s = .next (okState (setBs s b []))
        ∧ (arg s 0 = 0 → (bs s b).length + 1 ≤ 32768 →
            exec (.bsAppendBit b) s = .next (okState (setBs s b (bs s b ++ [false]))))
        ∧ (arg s 0 = 1 → (bs s b).length + 1 ≤ 32768 →
            exec (.bsAppendBit b) s = .next (okState (setBs s b (bs s b ++ [true]))))
        ∧ (arg s 0 > 1 → exec (.bsAppendBit b) s = .next (errState 0x02#8 s))
        ∧ (arg s 0 ≤ 1 → (bs s b).length + 1 > 32768 → exec (.bsAppendBit b) s = .next (errState 0x03#8 s))

/-- 41 R103: BS_APPEND_BITS appends v[n-1], …, v[0], or fails with RANGE, then BS_FULL. -/
def Obligations.BsAppendBitsMsbFirst : Prop :=
  SelWords 0x12 .bsAppendBits
    ∧ ∀ (b : Buf) (s : State),
      (arg s 1 ≤ 32 → (bs s b).length + arg s 1 ≤ 32768 →
          exec (.bsAppendBits b) s = .next (okState (setBs s b
            (bs s b ++ (List.range (arg s 1)).map fun i => s.args.arg0.getLsbD (arg s 1 - 1 - i)))))
        ∧ (arg s 1 > 32 → exec (.bsAppendBits b) s = .next (errState 0x02#8 s))
        ∧ (arg s 1 ≤ 32 → (bs s b).length + arg s 1 > 32768 →
          exec (.bsAppendBits b) s = .next (errState 0x03#8 s))

/-- 41 R104, R105: BS_APPEND_BS appends the other buffer or fails with BS_FULL; BS_XOR adds the other buffer bit by bit or
fails with XOR_LEN. -/
def Obligations.BsAppendBsAndXor : Prop :=
  SelWords 0x13 .bsAppendBs ∧ SelWords 0x14 .bsXor
    ∧ ∀ (b : Buf) (s : State),
      ((bs s b).length + (bs s b.other).length ≤ 32768 →
          exec (.bsAppendBs b) s = .next (okState (setBs s b (bs s b ++ bs s b.other))))
        ∧ ((bs s b).length + (bs s b.other).length > 32768 →
          exec (.bsAppendBs b) s = .next (errState 0x03#8 s))
        ∧ ((bs s b).length = (bs s b.other).length →
          exec (.bsXor b) s = .next (okState (setBs s b ((List.range (bs s b).length).map fun i =>
            xor ((bs s b).getD i false) ((bs s b.other).getD i false)))))
        ∧ ((bs s b).length ≠ (bs s b.other).length → exec (.bsXor b) s = .next (errState 0x04#8 s))

/-- 41 R106: BS_EXTRACT stores n bytes at dst, byte j made of bits 8 (k + j) to 8 (k + j) + 7, most significant first,
absent bits 0; no other byte of CWRAM and no other state changes. Or it fails with CW_BOUNDS. -/
def Obligations.BsExtractStoresBytes : Prop :=
  SelWords 0x15 .bsExtract
    ∧ ∀ (b : Buf) (s : State),
      (InCw (arg s 2) (arg s 1) → ∃ t, exec (.bsExtract b) s = .next t
          ∧ t = okState { s with cw := t.cw }
          ∧ Stores s t (arg s 2) ((List.range (arg s 1)).map fun j => BitVec.ofNat 8
              (((List.range 8).map fun u =>
                ((bs s b).getD (8 * (arg s 0 + j) + u) false).toNat * 2 ^ (7 - u)).sum)))
        ∧ (¬InCw (arg s 2) (arg s 1) → exec (.bsExtract b) s = .next (errState 0x0C#8 s))

/-- 41 R107: BS_GET_BIT puts bit i into RES0, or fails with BS_INDEX. -/
def Obligations.BsGetBitReads : Prop :=
  SelWords 0x16 .bsGetBit
    ∧ ∀ (b : Buf) (s : State),
      (∀ v, (bs s b)[arg s 0]? = some v →
          exec (.bsGetBit b) s = .next (okState { s with res := { s.res with res0 := if v then 1#32 else 0#32 } }))
        ∧ (arg s 0 ≥ (bs s b).length → exec (.bsGetBit b) s = .next (errState 0x05#8 s))

/-- 41 R108: BS_APPEND_CW appends the n bytes of CWRAM from src on, each most significant bit first (unwritten bytes are
free, 70 R246), or fails with CW_BOUNDS, then BS_FULL. -/
def Obligations.BsAppendCwAppendsBytes : Prop :=
  SelWords 0x17 .bsAppendCw
    ∧ ∀ (b : Buf) (s : State),
      (InCw (arg s 0) (arg s 1) → (bs s b).length + 8 * arg s 1 ≤ 32768 →
          ∃ v d, ReadsRegion s (arg s 0) (arg s 1) v ∧ (Written s (arg s 0) (arg s 1) → d = s.draws)
            ∧ exec (.bsAppendCw b) s = .next (okState { setBs s b
                (bs s b ++ v.flatMap fun c => (List.range 8).map fun u => c.getLsbD (7 - u)) with draws := d }))
        ∧ (¬InCw (arg s 0) (arg s 1) → exec (.bsAppendCw b) s = .next (errState 0x0C#8 s))
        ∧ (InCw (arg s 0) (arg s 1) → (bs s b).length + 8 * arg s 1 > 32768 →
          exec (.bsAppendCw b) s = .next (errState 0x03#8 s))

/-- 42 R124, R125: GF_ADD and GF_MUL (R122) put their result into RES0, or fail with RANGE. -/
def Obligations.GfAddAndMul : Prop :=
  PlainWord 0x20 .gfAdd ∧ PlainWord 0x21 .gfMul
    ∧ ∀ s : State,
      (arg s 0 ≤ 255 → arg s 1 ≤ 255 →
          exec .gfAdd s = .next (okState { s with res := { s.res with
            res0 := BitVec.ofNat 32 (arg s 0 ^^^ arg s 1) } })
          ∧ exec .gfMul s = .next (okState { s with res := { s.res with
            res0 := if arg s 0 = 0 ∨ arg s 1 = 0 then 0#32
              else (gfexp ((gflog (BitVec.ofNat 8 (arg s 0)) + gflog (BitVec.ofNat 8 (arg s 1))) % 255)).setWidth 32 } }))
        ∧ (arg s 0 > 255 ∨ arg s 1 > 255 →
          exec .gfAdd s = .next (errState 0x02#8 s) ∧ exec .gfMul s = .next (errState 0x02#8 s))

/-- 42 R126, R127, R128: GF_INV gives the b with gfmul(a, b) = 1, GF_EXP and GF_LOG read the tables; RANGE comes before
GF_ZERO and GF_LOG0. -/
def Obligations.GfInvExpAndLog : Prop :=
  PlainWord 0x22 .gfInv ∧ PlainWord 0x23 .gfExp ∧ PlainWord 0x24 .gfLog
    ∧ ∀ s : State,
      (1 ≤ arg s 0 → arg s 0 ≤ 255 →
          (∃ v : Byte, gfmul (BitVec.ofNat 8 (arg s 0)) v = 1#8
            ∧ exec .gfInv s = .next (okState { s with res := { s.res with res0 := v.setWidth 32 } }))
          ∧ exec .gfLog s = .next (okState { s with res := { s.res with
            res0 := BitVec.ofNat 32 (gflog (BitVec.ofNat 8 (arg s 0))) } }))
        ∧ (arg s 0 ≤ 255 → exec .gfExp s = .next (okState { s with res := { s.res with
            res0 := (gfexp (arg s 0)).setWidth 32 } }))
        ∧ (arg s 0 > 255 → exec .gfInv s = .next (errState 0x02#8 s) ∧ exec .gfExp s = .next (errState 0x02#8 s)
          ∧ exec .gfLog s = .next (errState 0x02#8 s))
        ∧ (arg s 0 = 0 → exec .gfInv s = .next (errState 0x06#8 s) ∧ exec .gfLog s = .next (errState 0x07#8 s))

/-- 43 R142: RS_GEN stores the e + 1 coefficients of g_e at dst and changes nothing else, or fails with RANGE, then
CW_BOUNDS. -/
def Obligations.RsGenStoresGenerator : Prop :=
  PlainWord 0x30 .rsGen
    ∧ ∀ s : State,
      (arg s 0 ≤ 255 → InCw (arg s 1) (arg s 0 + 1) → ∃ t, exec .rsGen s = .next t
          ∧ t = okState { s with cw := t.cw } ∧ (generator (arg s 0)).length = arg s 0 + 1
          ∧ Stores s t (arg s 1) (generator (arg s 0)))
        ∧ (arg s 0 > 255 → exec .rsGen s = .next (errState 0x02#8 s))
        ∧ (arg s 0 ≤ 255 → ¬InCw (arg s 1) (arg s 0 + 1) → exec .rsGen s = .next (errState 0x0C#8 s))

/-- 43 R144: POLY_MUL stores the product of its two regions at roff and changes nothing else, or fails with RANGE,
CW_BOUNDS, OVERLAP, in that order. -/
def Obligations.PolyMulStoresProduct : Prop :=
  PlainWord 0x31 .polyMul
    ∧ ∀ s : State,
      let n := arg s 1
      let m := arg s 3
      let inBounds := InCw (arg s 0) n ∧ InCw (arg s 2) m ∧ InCw (arg s 4) (n + m - 1)
      let overlapping := Overlaps (arg s 4) (n + m - 1) (arg s 0) n ∨ Overlaps (arg s 4) (n + m - 1) (arg s 2) m
      (n ≠ 0 → m ≠ 0 → inBounds → ¬overlapping → ∃ A B t, ReadsRegion s (arg s 0) n A ∧ ReadsRegion s (arg s 2) m B
          ∧ exec .polyMul s = .next t ∧ t = okState { s with cw := t.cw, draws := t.draws }
          ∧ (Written s (arg s 0) n → Written s (arg s 2) m → t.draws = s.draws)
          ∧ Stores s t (arg s 4) (polymul A B))
        ∧ (n = 0 ∨ m = 0 → exec .polyMul s = .next (errState 0x02#8 s))
        ∧ (n ≠ 0 → m ≠ 0 → ¬inBounds → exec .polyMul s = .next (errState 0x0C#8 s))
        ∧ (n ≠ 0 → m ≠ 0 → inBounds → overlapping → exec .polyMul s = .next (errState 0x0D#8 s))

/-- 43 R146: POLY_MOD stores the remainder of its two regions at roff and changes nothing else, or fails with RANGE,
CW_BOUNDS, OVERLAP, DIV_ZERO, in that order. A divisor with a written non-zero byte is not zero; one whose bytes are all
written as 0 is; whether any other divisor is zero lies with the draws (70 R246), and the last clause covers it too. -/
def Obligations.PolyModStoresRemainder : Prop :=
  PlainWord 0x32 .polyMod
    ∧ ∀ s : State,
      let n := arg s 1
      let m := arg s 3
      let inBounds := InCw (arg s 0) n ∧ InCw (arg s 2) m ∧ InCw (arg s 4) (m - 1)
      let overlapping := Overlaps (arg s 4) (m - 1) (arg s 0) n ∨ Overlaps (arg s 4) (m - 1) (arg s 2) m
      (n ≠ 0 → m ≠ 0 → inBounds → ¬overlapping →
          ((∃ j < m, ∃ c, cwGet? s.cw (arg s 2 + j) = some c ∧ c ≠ 0#8) →
            ∃ A B t, ReadsRegion s (arg s 0) n A ∧ ReadsRegion s (arg s 2) m B
              ∧ exec .polyMod s = .next t ∧ t = okState { s with cw := t.cw, draws := t.draws }
              ∧ (Written s (arg s 0) n → Written s (arg s 2) m → t.draws = s.draws)
              ∧ Stores s t (arg s 4) (polymod A B))
          ∧ ((∀ j < m, cwGet? s.cw (arg s 2 + j) = some 0#8) → exec .polyMod s = .next (errState 0x0A#8 s))
          ∧ ∃ (B : List Byte) (d : Nat), ReadsRegion s (arg s 2) m B
            ∧ ((∀ c ∈ B, c = 0#8) → exec .polyMod s = .next (errState 0x0A#8 { s with draws := d }))
            ∧ ((∃ c ∈ B, c ≠ 0#8) → ∃ A t, ReadsRegion s (arg s 0) n A ∧ exec .polyMod s = .next t
              ∧ t = okState { s with cw := t.cw, draws := t.draws } ∧ Stores s t (arg s 4) (polymod A B)))
        ∧ (n = 0 ∨ m = 0 → exec .polyMod s = .next (errState 0x02#8 s))
        ∧ (n ≠ 0 → m ≠ 0 → ¬inBounds → exec .polyMod s = .next (errState 0x0C#8 s))
        ∧ (n ≠ 0 → m ≠ 0 → inBounds → overlapping → exec .polyMod s = .next (errState 0x0D#8 s))

/-- 43 R148: RS_ENC stores the e error-correction codewords (R147) of its data region at eoff and changes nothing else, or
fails with RS_NO_EC, RS_NO_DATA, RANGE, CW_BOUNDS, OVERLAP, in that order. -/
def Obligations.RsEncStoresCodewords : Prop :=
  PlainWord 0x33 .rsEnc
    ∧ ∀ s : State,
      let k := arg s 1
      let e := arg s 2
      let inBounds := InCw (arg s 0) k ∧ InCw (arg s 3) e
      let overlapping := Overlaps (arg s 3) e (arg s 0) k
      (e ≠ 0 → k ≠ 0 → e ≤ 255 → inBounds → ¬overlapping → ∃ D t, ReadsRegion s (arg s 0) k D
          ∧ exec .rsEnc s = .next t ∧ t = okState { s with cw := t.cw, draws := t.draws }
          ∧ (Written s (arg s 0) k → t.draws = s.draws)
          ∧ (polymod (D ++ List.replicate e 0#8) (generator e)).length = e
          ∧ Stores s t (arg s 3) (polymod (D ++ List.replicate e 0#8) (generator e)))
        ∧ (e = 0 → exec .rsEnc s = .next (errState 0x08#8 s))
        ∧ (e ≠ 0 → k = 0 → exec .rsEnc s = .next (errState 0x09#8 s))
        ∧ (k ≠ 0 → e > 255 → exec .rsEnc s = .next (errState 0x02#8 s))
        ∧ (e ≠ 0 → k ≠ 0 → e ≤ 255 → ¬inBounds → exec .rsEnc s = .next (errState 0x0C#8 s))
        ∧ (e ≠ 0 → k ≠ 0 → e ≤ 255 → inBounds → overlapping → exec .rsEnc s = .next (errState 0x0D#8 s))

/-- 44 R162: BCH_CODE puts the code c into RES0 and (v << (bitlen(p) - 1)) | c into RES1, or fails with RANGE, then
BCH_ZERO_POLY. -/
def Obligations.BchCodeResults : Prop :=
  PlainWord 0x40 .bchCode
    ∧ ∀ s : State,
      let v := arg s 0
      let p := arg s 1
      (v ≤ 0xFFFF → 1 ≤ p → p ≤ 0xFFFF →
          exec .bchCode s = .next (okState { s with res := { s.res with
            res0 := BitVec.ofNat 32 (bch v p)
            res1 := BitVec.ofNat 32 (v * 2 ^ (bitlen p - 1) + bch v p) } })
          ∧ v * 2 ^ (bitlen p - 1) + bch v p < 2 ^ 32)
        ∧ (v > 0xFFFF ∨ p > 0xFFFF → exec .bchCode s = .next (errState 0x02#8 s))
        ∧ (v ≤ 0xFFFF → p = 0 → exec .bchCode s = .next (errState 0x0B#8 s))

/-- 44 R163, R164, R167, R168: FMT_INFO gives fmt, raw and the BCH code; VER_INFO gives the 18-bit word and the BCH code;
both fail with RANGE. The words fit 15 and 18 bits. -/
def Obligations.FormatAndVersionWords : Prop :=
  PlainWord 0x41 .fmtInfo ∧ PlainWord 0x42 .verInfo
    ∧ ∀ s : State,
      (arg s 0 ≤ 3 → arg s 1 ≤ 7 →
          let d := 8 * arg s 0 + arg s 1
          let raw := 1024 * d + bch d 0x537
          raw < 2 ^ 15 ∧ raw ^^^ 0x5412 < 2 ^ 15 ∧ bch d 0x537 < 2 ^ 10
            ∧ exec .fmtInfo s = .next (okState { s with res := { s.res with
              res0 := BitVec.ofNat 32 (raw ^^^ 0x5412), res1 := BitVec.ofNat 32 raw
              res2 := BitVec.ofNat 32 (bch d 0x537) } }))
        ∧ (arg s 0 > 3 ∨ arg s 1 > 7 → exec .fmtInfo s = .next (errState 0x02#8 s))
        ∧ (arg s 0 ≤ 63 → 4096 * arg s 0 + bch (arg s 0) 0x1F25 < 2 ^ 18 ∧ bch (arg s 0) 0x1F25 < 2 ^ 12
            ∧ exec .verInfo s = .next (okState { s with res := { s.res with
              res0 := BitVec.ofNat 32 (4096 * arg s 0 + bch (arg s 0) 0x1F25)
              res1 := BitVec.ofNat 32 (bch (arg s 0) 0x1F25) } }))
        ∧ (arg s 0 > 63 → exec .verInfo s = .next (errState 0x02#8 s))

/-- 45 R182: MX_CLEAR makes a matrix of version v, DIM = 17 + 4 v, every cell UNSET, or fails with RANGE. -/
def Obligations.MxClearStartsMatrix : Prop :=
  PlainWord 0x50 .mxClear
    ∧ ∀ s : State,
      (1 ≤ arg s 0 → arg s 0 ≤ 40 → ∃ t, exec .mxClear s = .next t
          ∧ t = okState { s with
              mxVer := arg s 0
              grid := List.replicate (17 + 4 * arg s 0) (List.replicate (17 + 4 * arg s 0) .unset) }
          ∧ mxDim t = 17 + 4 * arg s 0)
        ∧ (arg s 0 < 1 ∨ arg s 0 > 40 → exec .mxClear s = .next (errState 0x02#8 s))

/-- 45 R183: MX_SET writes cell (x, y) and no other, or fails with RANGE, MX_NODIM, MX_COORD, in that order. -/
def Obligations.MxSetWritesOneCell : Prop :=
  PlainWord 0x51 .mxSet
    ∧ ∀ s : State, GridOk s →
      (∀ c : MxCell, cellCode c = arg s 2 → s.mxVer ≠ 0 → arg s 0 < mxDim s → arg s 1 < mxDim s →
          ∃ t, exec .mxSet s = .next t ∧ t = okState { s with grid := t.grid } ∧ GridOk t
            ∧ cellAt t.grid (arg s 0) (arg s 1) = c
            ∧ ∀ x y, (x, y) ≠ (arg s 0, arg s 1) → cellAt t.grid x y = cellAt s.grid x y)
        ∧ (arg s 2 ≠ 0 → arg s 2 ≠ 1 → arg s 2 ≠ 3 → exec .mxSet s = .next (errState 0x02#8 s))
        ∧ ((arg s 2 = 0 ∨ arg s 2 = 1 ∨ arg s 2 = 3) → s.mxVer = 0 → exec .mxSet s = .next (errState 0x0E#8 s))
        ∧ ((arg s 2 = 0 ∨ arg s 2 = 1 ∨ arg s 2 = 3) → s.mxVer ≠ 0 → (arg s 0 ≥ mxDim s ∨ arg s 1 ≥ mxDim s) →
          exec .mxSet s = .next (errState 0x0F#8 s))

/-- 45 R184, R186: MX_GET gives the code of cell (x, y), or fails with MX_NODIM, then MX_COORD; MX_MASKBIT gives the mask
bit, whatever the matrix, or fails with RANGE. -/
def Obligations.MxGetAndMaskbit : Prop :=
  PlainWord 0x52 .mxGet ∧ PlainWord 0x55 .mxMaskbit
    ∧ ∀ s : State,
      (s.mxVer ≠ 0 → arg s 0 < mxDim s → arg s 1 < mxDim s →
          exec .mxGet s = .next (okState { s with res := { s.res with
            res0 := match cellAt s.grid (arg s 0) (arg s 1) with
              | .light => 0#32
              | .dark => 1#32
              | .unset => 3#32 } }))
        ∧ (s.mxVer = 0 → exec .mxGet s = .next (errState 0x0E#8 s))
        ∧ (s.mxVer ≠ 0 → (arg s 0 ≥ mxDim s ∨ arg s 1 ≥ mxDim s) → exec .mxGet s = .next (errState 0x0F#8 s))
        ∧ (arg s 0 ≤ 7 → arg s 1 ≤ 176 → arg s 2 ≤ 176 →
          exec .mxMaskbit s = .next (okState { s with res := { s.res with
            res0 := if maskbit (arg s 0) (arg s 1) (arg s 2) then 1#32 else 0#32 } }))
        ∧ (arg s 0 > 7 ∨ arg s 1 > 176 ∨ arg s 2 > 176 → exec .mxMaskbit s = .next (errState 0x02#8 s))

/-- 45 R188, R190, R191, R198: MX_PLACE gives the j-th UNSET cell of the traversal bit j of the buffer, or 0 past its end,
inverted where the mask bit is 1 (never for mask -1); it changes no other cell and RES0 to RES2 only. Or it fails with
RANGE, MX_NODIM, PLACE_LEFTOVER, in that order. -/
def Obligations.MxPlaceFillsUnsetCells : Prop :=
  SelWords 0x53 .mxPlace
    ∧ ∀ (b : Buf) (s : State), GridOk s →
      let N := mxDim s
      let L := (bs s b).length
      let U := fillable s.grid N
      let legal := arg s 0 ≤ 7 ∨ arg s 0 = 0xFFFFFFFF
      (legal → s.mxVer ≠ 0 → L ≤ U → ∃ t, exec (.mxPlace b) s = .next t
          ∧ t = okState { s with
              grid := t.grid
              res := { s.res with res0 := BitVec.ofNat 32 L, res1 := BitVec.ofNat 32 (U - L),
                                  res2 := BitVec.ofNat 32 U } }
          ∧ GridOk t
          ∧ (∀ k x y, (traverse N)[k]? = some (x, y) → cellAt s.grid x y = .unset →
              let j := ((traverse N).take k).countP fun p => decide (cellAt s.grid p.1 p.2 = .unset)
              let bit := (bs s b).getD j false
              let inverted := arg s 0 ≤ 7 ∧ maskbit (arg s 0) x y = true
              cellAt t.grid x y = if xor bit (decide inverted) then .dark else .light)
          ∧ (∀ x y, cellAt s.grid x y ≠ .unset ∨ x = 6 ∨ x ≥ N ∨ y ≥ N → cellAt t.grid x y = cellAt s.grid x y))
        ∧ (¬legal → exec (.mxPlace b) s = .next (errState 0x02#8 s))
        ∧ (legal → s.mxVer = 0 → exec (.mxPlace b) s = .next (errState 0x0E#8 s))
        ∧ (legal → s.mxVer ≠ 0 → L > U → exec (.mxPlace b) s = .next (errState 0x10#8 s))

/-- 45 R196: MX_SCORE gives the four penalties and their sum and changes no cell, or fails with MX_NODIM, then
MX_UNSET. Every result fits a RES register: the penalties' bounds, and a sum below 2^22. -/
def Obligations.MxScoreResults : Prop :=
  PlainWord 0x54 .mxScore
    ∧ (∀ s : State,
      let N := mxDim s
      let unset := ∃ x < N, ∃ y < N, cellAt s.grid x y = .unset
      (s.mxVer ≠ 0 → ¬unset → exec .mxScore s = .next (okState { s with res := {
          res0 := BitVec.ofNat 32 (penalty1 s.grid N + penalty2 s.grid N + penalty3 s.grid N + penalty4 s.grid N)
          res1 := BitVec.ofNat 32 (penalty1 s.grid N)
          res2 := BitVec.ofNat 32 (penalty2 s.grid N)
          res3 := BitVec.ofNat 32 (penalty3 s.grid N)
          res4 := BitVec.ofNat 32 (penalty4 s.grid N) } }))
        ∧ (s.mxVer = 0 → exec .mxScore s = .next (errState 0x0E#8 s))
        ∧ (s.mxVer ≠ 0 → unset → exec .mxScore s = .next (errState 0x11#8 s)))
    ∧ ∀ (g : List (List MxCell)) (v : Nat), 1 ≤ v → v ≤ 40 →
      penalty1 g (dim v) ≤ 2 * 177 * 175 ∧ penalty2 g (dim v) ≤ 3 * 176 ^ 2
        ∧ penalty3 g (dim v) ≤ 40 * 2 * 177 * 171 ∧ penalty4 g (dim v) ≤ 100
        ∧ penalty1 g (dim v) + penalty2 g (dim v) + penalty3 g (dim v) + penalty4 g (dim v) < 2 ^ 22

/-! ## The field, the polynomials and the codes -/

/-- 42 R120, R121: EXP[0] = 1, EXP follows the recurrence up to EXP[255] = 1, EXP[0..254] are the 255 non-zero bytes, each
once, and LOG is the inverse. -/
def Obligations.ExpAndLogTables : Prop :=
  gfexp 0 = 1#8 ∧ gfexp 255 = 1#8
    ∧ (∀ i < 255, (gfexp (i + 1)).toNat
        = if 2 * (gfexp i).toNat ≥ 256 then (2 * (gfexp i).toNat) ^^^ 0x11D else 2 * (gfexp i).toNat)
    ∧ (∀ i < 255, gfexp i ≠ 0#8)
    ∧ ∀ a : Byte, a ≠ 0#8 → gflog a < 255 ∧ gfexp (gflog a) = a ∧ ∀ i < 255, gfexp i = a → i = gflog a

/-- 42 R122, R129: multiplication through the tables, which is the carry-less product reduced modulo 0x11D, and the laws of
the field. -/
def Obligations.FieldLaws : Prop :=
  ∀ a b c : Byte,
    gfmul a b = (if a = 0#8 ∨ b = 0#8 then 0#8 else gfexp ((gflog a + gflog b) % 255))
      ∧ (∃ q : Nat, carryless a.toNat b.toNat = carryless q 0x11D ^^^ (gfmul a b).toNat)
      ∧ gfmul a b = gfmul b a ∧ gfmul (gfmul a b) c = gfmul a (gfmul b c) ∧ gfmul a 1#8 = a ∧ gfmul a 0#8 = 0#8
      ∧ gfmul a (b ^^^ c) = gfmul a b ^^^ gfmul a c
      ∧ (a ≠ 0#8 → gfmul a (gfinv a) = 1#8)
      ∧ (a ≠ 0#8 → b ≠ 0#8 → gflog (gfmul a b) = (gflog a + gflog b) % 255)

/-- 43 R141: the generator polynomial is the product of the factors (x + EXP[d-1]), starting from 1; it is monic and has
e + 1 coefficients. -/
def Obligations.GeneratorPolynomial : Prop :=
  generator 0 = [1#8] ∧ (∀ e, generator (e + 1) = polymul (generator e) [1#8, gfexp e])
    ∧ (∀ e ≤ 255, (generator e).length = e + 1 ∧ (generator e)[0]? = some 1#8)

/-- 43 R143: the product has n + m - 1 coefficients, and the k-th is the sum of the A[i] B[j] with i + j = k. -/
def Obligations.PolymulCoefficients : Prop :=
  ∀ A B : List Byte, A ≠ [] → B ≠ [] →
    (polymul A B).length = A.length + B.length - 1
      ∧ ∀ k < A.length + B.length - 1, (polymul A B)[k]? = some
        ((List.range A.length).foldl (fun acc i =>
          if i ≤ k ∧ k - i < B.length then acc ^^^ gfmul (A.getD i 0#8) (B.getD (k - i) 0#8) else acc) 0#8)

/-- 43 R145: the remainder has m - 1 coefficients, its degree is below that of B, A = Q B + R for some Q, and it is the only
such R. -/
def Obligations.PolymodIsRemainder : Prop :=
  ∀ A B : List Byte, A ≠ [] → (∃ c ∈ B, c ≠ 0#8) →
    (polymod A B).length = B.length - 1
      ∧ (∀ d, (∀ e, d < e → coeffOf B e = 0#8) → coeffOf (polymod A B) d = 0#8)
      ∧ (∃ Q : List Byte, Q ≠ [] ∧ ∀ d, coeffOf A d = coeffOf (polymul Q B) d ^^^ coeffOf (polymod A B) d)
      ∧ ∀ Q R : List Byte, Q ≠ [] → (∀ d, coeffOf A d = coeffOf (polymul Q B) d ^^^ coeffOf R d) →
        (∀ d, (∀ e, d < e → coeffOf B e = 0#8) → coeffOf R d = 0#8) → ∀ d, coeffOf R d = coeffOf (polymod A B) d

/-- 43 R149: the shift-register form gives the error-correction codewords, for every D and e ≥ 1. -/
def Obligations.ShiftRegisterGivesCodewords : Prop :=
  ∀ (D : List Byte) (e : Nat), 1 ≤ e → e ≤ 255 → shiftRegister D e = rsec D e

/-- 44 R161: bch(v, p) is below 2^(bitlen(p) - 1), and (v << (bitlen(p) - 1)) ⊕ bch(v, p) is a multiple of p over GF(2);
the codes of 0x537 and 0x1F25 have 10 and 12 bits. -/
def Obligations.BchIsRemainder : Prop :=
  bitlen 0x537 = 11 ∧ bitlen 0x1F25 = 13
    ∧ ∀ v p : Nat, 1 ≤ p → bch v p < 2 ^ (bitlen p - 1)
      ∧ ∃ q : Nat, (v <<< (bitlen p - 1)) ^^^ bch v p = carryless q p

/-! ## The matrix -/

/-- 45 R185: when each mask formula inverts. -/
def Obligations.MaskFormulas : Prop :=
  ∀ x y : Nat,
    (maskbit 0 x y = true ↔ (x + y) % 2 = 0) ∧ (maskbit 1 x y = true ↔ y % 2 = 0)
      ∧ (maskbit 2 x y = true ↔ x % 3 = 0) ∧ (maskbit 3 x y = true ↔ (x + y) % 3 = 0)
      ∧ (maskbit 4 x y = true ↔ (y / 2 + x / 3) % 2 = 0) ∧ (maskbit 5 x y = true ↔ x * y % 6 = 0)
      ∧ (maskbit 6 x y = true ↔ (x * y % 2 + x * y % 3) % 2 = 0)
      ∧ (maskbit 7 x y = true ↔ (x * y % 3 + (x + y) % 2) % 2 = 0)

/-- 45 R187, R189: the traversal. Column pair p, its r-th row, column c of the pair is step 2 (N p + r) + c: the right column
first, the pairs upward and downward in turn, column 6 skipped. So every cell outside column 6 is visited once and no
other, in N (N - 1) steps, and U, the number of UNSET cells with x ≠ 6, is the number of UNSET cells visited. -/
def Obligations.TraversalOrderAndCapacity : Prop :=
  ∀ v : Nat, 1 ≤ v → v ≤ 40 →
    let N := dim v
    (∀ p < (N - 1) / 2, ∀ r < N, ∀ c < 2, (traverse N)[2 * (N * p + r) + c]? = some
        ((if N - 1 - 2 * p > 6 then N - 1 - 2 * p else N - 2 - 2 * p) - c, if p % 2 = 0 then N - 1 - r else r))
      ∧ (traverse N).length = N * (N - 1) ∧ (traverse N).Nodup
      ∧ (∀ x y, (x, y) ∈ traverse N ↔ x < N ∧ y < N ∧ x ≠ 6)
      ∧ ∀ g : List (List MxCell),
        fillable g N = (((Finset.range N) ×ˢ (Finset.range N)).filter
            fun p => p.1 ≠ 6 ∧ cellAt g p.1 p.2 = .unset).card
          ∧ fillable g N = (traverse N).countP fun p => decide (cellAt g p.1 p.2 = .unset)

/-- 45 R192: a line's runs are its maximal runs of equal value; P1 adds 3 + (r - 5) for each run of r ≥ 5 in every row and
column. -/
def Obligations.PenaltyOneScoresMaximalRuns : Prop :=
  (∀ l : List MxCell, runs l = (l.splitBy (· == ·)).map List.length)
    ∧ (∀ r, runPenalty r = if 5 ≤ r then 3 + (r - 5) else 0)
    ∧ ∀ (g : List (List MxCell)) (N : Nat), penalty1 g N =
      (((List.range N).map fun y => (List.range N).map fun x => cellAt g x y)
        ++ (List.range N).map fun x => (List.range N).map fun y => cellAt g x y).foldl
        (fun acc l => acc + ((runs l).map runPenalty).sum) 0

/-- 45 R193, R195: P2 is 3 for every uniform 2x2 window; P4 is the dark balance, a multiple of 10 from 0 to 100. -/
def Obligations.PenaltiesTwoAndFour : Prop :=
  ∀ (g : List (List MxCell)) (N : Nat), 2 ≤ N →
    penalty2 g N = 3 * (((Finset.range (N - 1)) ×ˢ (Finset.range (N - 1))).filter fun p =>
        cellAt g p.1 p.2 = cellAt g (p.1 + 1) p.2 ∧ cellAt g p.1 p.2 = cellAt g p.1 (p.2 + 1)
          ∧ cellAt g p.1 p.2 = cellAt g (p.1 + 1) (p.2 + 1)).card
      ∧ (∃ D T : Nat, D = (((Finset.range N) ×ˢ (Finset.range N)).filter fun p =>
            cellAt g p.1 p.2 = .dark).card ∧ T = N * N
          ∧ penalty4 g N = 10 * ((2 * (D : Int) - T).natAbs * 10 / T))
      ∧ penalty4 g N ≤ 100 ∧ 10 ∣ penalty4 g N

/-- 45 R194: P3 is 40 for every occurrence of 1 0 1 1 1 0 1, in rows and in columns, with four light cells right before it
or right after it, a cell outside the matrix counting as light. -/
def Obligations.PenaltyThreeFinderLikePatterns : Prop :=
  ∀ (g : List (List MxCell)) (N : Nat), 7 ≤ N →
    penalty3 g N
      = 40 * (((Finset.range (N - 6)) ×ˢ (Finset.range N)).filter fun p =>
          (∀ k < 7, cellAt g (p.1 + k) p.2 = if k = 1 ∨ k = 5 then .light else .dark)
            ∧ ((∀ k < 4, p.1 + k < 4 ∨ cellAt g (p.1 + k - 4) p.2 = .light)
              ∨ ∀ k < 4, N ≤ p.1 + 7 + k ∨ cellAt g (p.1 + 7 + k) p.2 = .light)).card
        + 40 * (((Finset.range N) ×ˢ (Finset.range (N - 6))).filter fun p =>
          (∀ k < 7, cellAt g p.1 (p.2 + k) = if k = 1 ∨ k = 5 then .light else .dark)
            ∧ ((∀ k < 4, p.2 + k < 4 ∨ cellAt g p.1 (p.2 + k - 4) = .light)
              ∨ ∀ k < 4, N ≤ p.2 + 7 + k ∨ cellAt g p.1 (p.2 + 7 + k) = .light)).card

/-! ## The host's side -/

/-- 10 R21, R22, R23: ID, REV and PARAM_* read their constants at all times, and writes to them are ignored. -/
def Obligations.ConstantRegisters : Prop :=
  ∀ (s : State) (v : Word),
    portCycle (readAt 0x000) s = .next { s with rdata := 0x51524345#32 }
      ∧ portCycle (readAt 0x004) s = .next { s with rdata := 0x00000001#32 }
      ∧ portCycle (readAt 0x008) s = .next { s with rdata := 32768#32 }
      ∧ portCycle (readAt 0x00C) s = .next { s with rdata := 4096#32 }
      ∧ portCycle (readAt 0x010) s = .next { s with rdata := 255#32 }
      ∧ ∀ off ∈ [0x000, 0x004, 0x008, 0x00C, 0x010], portCycle (writeAt off v) s = .next s

/-- 10 R24: CTRL reads IE and zeros; a write, busy or not, sets IE from bit [0], or with SRST = 1 soft-resets and leaves
IE = 0. -/
def Obligations.CtrlRegister : Prop :=
  ∀ (s : State) (v : Word),
    portCycle (readAt 0x014) s = .next { s with rdata := if s.ie then 1#32 else 0#32 }
      ∧ (v.getLsbD 1 = false → portCycle (writeAt 0x014 v) s = .next { s with ie := v.getLsbD 0 })
      ∧ (v.getLsbD 1 = true → portCycle (writeAt 0x014 v) s = .next (softReset s) ∧ (softReset s).ie = false)
      ∧ State.reset.ie = false

/-- 10 R25, 60 R219, R220: STATUS's fields as read; a write of 1 clears DONE and OVR and does nothing else, busy or not;
irq is DONE AND IE. -/
def Obligations.StatusRegisterAndIrq : Prop :=
  ∀ (s : State) (v : Word),
    (∃ w : Word, portCycle (readAt 0x018) s = .next { s with rdata := w }
        ∧ w.getLsbD 0 = s.busy ∧ w.getLsbD 1 = s.done ∧ w.getLsbD 2 = s.err ∧ w.getLsbD 3 = s.ovr
        ∧ w.extractLsb' 4 4 = 0#4 ∧ w.extractLsb' 8 8 = s.errcode ∧ w.extractLsb' 16 16 = 0#16)
      ∧ portCycle (writeAt 0x018 v) s = .next { s with
          done := if v.getLsbD 1 then false else s.done
          ovr := if v.getLsbD 3 then false else s.ovr }
      ∧ (irq s = true ↔ s.done = true ∧ s.ie = true)

/-- 10 R26, 60 R211: a CMD write while idle issues: the word is latched, DONE, ERR and ERRCODE are cleared, BUSY is set,
all else is unchanged (the latency is the model's free value, log entry 2); while busy it is dropped and sets OVR; a read
gives the last word issued. -/
def Obligations.CmdWriteIssues : Prop :=
  ∀ (s : State) (w : Word),
    (s.busy = false → ∃ k, portCycle (writeAt 0x01C w) s = .next { s with
        cmd := w, done := false, err := false, errcode := 0x00#8, busy := true, wait := k, draws := s.draws + 1 })
      ∧ (s.busy = true → portCycle (writeAt 0x01C w) s = .next { s with ovr := true })
      ∧ portCycle (readAt 0x01C) s = .next { s with rdata := s.cmd }
      ∧ State.reset.cmd = 0x00000000#32

/-- 10 R27: the ARG registers: reads give the last value written, writes take effect only while idle, no command writes
them, reset 0 each. -/
def Obligations.ArgRegisters : Prop :=
  (∀ (s : State) (j : Fin 6) (v : Word),
    portCycle (readAt (0x020 + 4 * j)) s = .next { s with rdata := s.args.get j }
      ∧ (s.busy = false → portCycle (writeAt (0x020 + 4 * j) v) s = .next { s with args := s.args.set j v })
      ∧ (s.busy = true → portCycle (writeAt (0x020 + 4 * j) v) s = .next { s with ovr := true })
      ∧ (s.args.set j v).get j = v ∧ ∀ k, k ≠ j → (s.args.set j v).get k = s.args.get k)
    ∧ (∀ (i : Instr) (s t : State), exec i s = .next t → t.args = s.args)
    ∧ ∀ j : Fin 6, State.reset.args.get j = 0#32

/-- 10 R28, R29: RES0 to RES4 and the four mirrors: their values while idle, a free value while busy, writes ignored, busy or
not, reset 0 each. -/
def Obligations.ResultAndMirrorRegisters : Prop :=
  (∀ (s : State) (v : Word),
    (s.busy = false →
        (∀ j : Fin 5, portCycle (readAt (0x040 + 4 * j)) s = .next { s with rdata := s.res.get j })
          ∧ portCycle (readAt 0x060) s = .next { s with rdata := BitVec.ofNat 32 s.bsA.length }
          ∧ portCycle (readAt 0x064) s = .next { s with rdata := BitVec.ofNat 32 s.bsB.length }
          ∧ portCycle (readAt 0x068) s = .next { s with rdata := BitVec.ofNat 32 s.mxVer }
          ∧ portCycle (readAt 0x06C) s = .next { s with
            rdata := if s.mxVer = 0 then 0#32 else BitVec.ofNat 32 (17 + 4 * s.mxVer) })
      ∧ ∀ off ∈ [0x040, 0x044, 0x048, 0x04C, 0x050, 0x060, 0x064, 0x068, 0x06C],
        portCycle (writeAt off v) s = .next s
          ∧ (s.busy = true → ∃ w, portCycle (readAt off) s = .next { s with rdata := w, draws := s.draws + 1 }))
    ∧ (∀ j : Fin 5, State.reset.res.get j = 0#32)
    ∧ State.reset.bsA = [] ∧ State.reset.bsB = [] ∧ State.reset.mxVer = 0

/-- 20 R52, R53: the CWRAM window. A read gives the byte with zeros above, a free byte where it is unwritten (70 R246) or
while busy (70 R248); a write sets the low byte and no other byte, and while busy is dropped and sets OVR. -/
def Obligations.CwramWindow : Prop :=
  ∀ (s : State) (i : Nat) (v : Word), i < 4096 →
    (∀ c, s.busy = false → cwGet? s.cw i = some c →
        portCycle (readAt (0x4000 + 4 * i)) s = .next { s with rdata := c.setWidth 32 })
      ∧ (s.busy = true ∨ cwGet? s.cw i = none → ∃ c : Byte,
        portCycle (readAt (0x4000 + 4 * i)) s = .next { s with rdata := c.setWidth 32, draws := s.draws + 1 })
      ∧ (s.busy = false → ∃ t, portCycle (writeAt (0x4000 + 4 * i) v) s = .next t ∧ t = { s with cw := t.cw }
        ∧ cwGet? t.cw i = some (v.extractLsb' 0 8) ∧ ∀ a, a ≠ i → cwGet? t.cw a = cwGet? s.cw a)
      ∧ (s.busy = true → portCycle (writeAt (0x4000 + 4 * i) v) s = .next { s with ovr := true })

/-- 10 R39: reserved offsets read 0 and ignore writes, without OVR; reserved bits of CTRL and STATUS read 0 and ignore
writes. -/
def Obligations.ReservedOffsetsAndBits : Prop :=
  ∀ (s : State) (v w : Word),
    (∀ off, off % 4 = 0 → off < 0x10000 →
        (0x038 ≤ off ∧ off < 0x040 ∨ 0x054 ≤ off ∧ off < 0x060 ∨ 0x070 ≤ off ∧ off < 0x4000 ∨ 0x8000 ≤ off) →
        portCycle (readAt off) s = .next { s with rdata := 0#32 } ∧ portCycle (writeAt off v) s = .next s)
      ∧ (v.getLsbD 0 = w.getLsbD 0 → v.getLsbD 1 = w.getLsbD 1 →
        portCycle (writeAt 0x014 v) s = portCycle (writeAt 0x014 w) s)
      ∧ (v.getLsbD 1 = w.getLsbD 1 → v.getLsbD 3 = w.getLsbD 3 →
        portCycle (writeAt 0x018 v) s = portCycle (writeAt 0x018 w) s)
      ∧ (ctrlWord s).toNat < 2 ∧ (statusWord s).toNat % 256 < 16 ∧ (statusWord s).toNat < 65536

/-- 20 R54, R63, 70 R240, 60 R229: what a clock edge refuses, and that it refuses nothing else. An edge without an access
is a hard reset with rst = 1 and leaves the state as it is with rst = 0 (60 R227). THE MODEL'S CHOICE (log entry 8): the
order of the three refusals, that an edge with neither strobe is no access, and that one with both is refused. -/
def Obligations.OnlyAccessesOutsideTheContractAreRefused : Prop :=
  ∀ (s : State) (p : PortInput),
    let access := p.we = true ∨ p.re = true
    let word := p.we ≠ p.re ∧ p.size = 0b10#2 ∧ p.addr.toNat % 4 = 0
    (p.rst = true → access → portCycle p s = .refused .accessDuringReset)
      ∧ (p.rst = false → access → p.otherHost = true → portCycle p s = .refused .secondHost)
      ∧ (p.rst = false → access → p.otherHost = false → ¬word → portCycle p s = .refused .unsupportedAccess)
      ∧ (p.rst = false → access → p.otherHost = false → word → ∃ t, portCycle p s = .next t)
      ∧ (p.rst = true → ¬access → portCycle p s = .next (hardReset s))
      ∧ (p.rst = false → ¬access → portCycle p s = .next s)

/-- 70 R247: while busy, writes to CMD, ARG and the CWRAM window do nothing but set OVR; writes to read-only and reserved
offsets do nothing; CTRL and STATUS writes act as when idle. -/
def Obligations.WritesWhileBusy : Prop :=
  ∀ (s : State) (v : Word), s.busy = true →
    (∀ off, (off = 0x01C ∨ (off % 4 = 0 ∧ 0x020 ≤ off ∧ off ≤ 0x034) ∨ (off % 4 = 0 ∧ 0x4000 ≤ off ∧ off ≤ 0x7FFC)) →
        portCycle (writeAt off v) s = .next { s with ovr := true })
      ∧ (∀ off, off % 4 = 0 → off < 0x10000 →
        (off < 0x014 ∨ 0x038 ≤ off ∧ off < 0x4000 ∨ 0x8000 ≤ off) → portCycle (writeAt off v) s = .next s)
      ∧ (v.getLsbD 1 = false → portCycle (writeAt 0x014 v) s = .next { s with ie := v.getLsbD 0 })
      ∧ (v.getLsbD 1 = true → ∃ t, portCycle (writeAt 0x014 v) s = .next t ∧ t.busy = false)
      ∧ portCycle (writeAt 0x018 v) s = .next { s with
          done := s.done && !v.getLsbD 1, ovr := s.ovr && !v.getLsbD 3 }

/-- 70 R248: while busy, reads of RES, the mirrors and the CWRAM window give a free value (the window's below 256), and the
other reads are exact. -/
def Obligations.ReadsWhileBusy : Prop :=
  ∀ s : State, s.busy = true →
    (∀ off ∈ [0x040, 0x044, 0x048, 0x04C, 0x050, 0x060, 0x064, 0x068, 0x06C],
        portCycle (readAt off) s
          = .next { s with rdata := Config.freeWord s.draws, draws := s.draws + 1 })
      ∧ (∀ i < 4096, portCycle (readAt (0x4000 + 4 * i)) s
          = .next { s with rdata := (Config.freeByte s.draws).setWidth 32, draws := s.draws + 1 })
      ∧ portCycle (readAt 0x000) s = .next { s with rdata := 0x51524345#32 }
      ∧ portCycle (readAt 0x004) s = .next { s with rdata := 0x00000001#32 }
      ∧ portCycle (readAt 0x008) s = .next { s with rdata := 32768#32 }
      ∧ portCycle (readAt 0x00C) s = .next { s with rdata := 4096#32 }
      ∧ portCycle (readAt 0x010) s = .next { s with rdata := 255#32 }
      ∧ portCycle (readAt 0x014) s = .next { s with rdata := if s.ie then 1#32 else 0#32 }
      ∧ (∃ w : Word, portCycle (readAt 0x018) s = .next { s with rdata := w } ∧ w.getLsbD 0 = true)
      ∧ portCycle (readAt 0x01C) s = .next { s with rdata := s.cmd }
      ∧ ∀ j : Fin 6, portCycle (readAt (0x020 + 4 * j)) s = .next { s with rdata := s.args.get j }

/-- 20 R61: a read changes nothing but bus_rdata (and the model's draw counter), and a read of a specified value gives the
same value again. -/
def Obligations.ReadsHaveNoSideEffects : Prop :=
  ∀ (r : Reg) (s : State),
    hostRead r s = { s with rdata := (hostRead r s).rdata, draws := (hostRead r s).draws }
      ∧ (s.busy = false → (∀ i, r = .cw i → (cwGet? s.cw i).isSome = true) →
        (hostRead r s).draws = s.draws ∧ hostRead r (hostRead r s) = hostRead r s)

/-! ## Reset -/

/-- 70 R241, R243: a hard reset, busy or not, leaves every register 0, both buffers empty, no matrix, CWRAM unwritten, no
command in flight and irq 0; the matrix commands that need a matrix then fail with MX_NODIM. THE MODEL'S CHOICE: the
host's queue outlives the reset (log entries 3 and 13). -/
def Obligations.HardResetValues : Prop :=
  ∀ (s : State) (p : PortInput), p.rst = true → p.we = false → p.re = false →
    ∃ t, portCycle p s = .next t
      ∧ t.ie = false ∧ t.busy = false ∧ t.done = false ∧ t.err = false ∧ t.ovr = false ∧ t.errcode = 0x00#8
      ∧ t.cmd = 0#32 ∧ (∀ j, t.args.get j = 0#32) ∧ (∀ j, t.res.get j = 0#32)
      ∧ t.bsA = [] ∧ t.bsB = [] ∧ t.mxVer = 0 ∧ mxDim t = 0 ∧ (∀ a, cwGet? t.cw a = none) ∧ irq t = false
      ∧ t.bus = s.bus
      ∧ portCycle (readAt 0x000) t = .next { t with rdata := 0x51524345#32 }
      ∧ portCycle (readAt 0x004) t = .next { t with rdata := 0x00000001#32 }
      ∧ portCycle (readAt 0x008) t = .next { t with rdata := 32768#32 }
      ∧ portCycle (readAt 0x00C) t = .next { t with rdata := 4096#32 }
      ∧ portCycle (readAt 0x010) t = .next { t with rdata := 255#32 }
      ∧ exec .mxSet t = .next (errState 0x0E#8 t) ∧ exec .mxGet t = .next (errState 0x0E#8 t)
      ∧ exec .mxScore t = .next (errState 0x0E#8 t) ∧ ∀ b, exec (.mxPlace b) t = .next (errState 0x0E#8 t)

/-- 70 R242: a soft reset gives every register its reset value, discards the IE written, and while idle keeps CWRAM.
THE MODEL'S CHOICE: the host's queue outlives the reset (log entries 3 and 13). -/
def Obligations.SoftResetKeepsCwram : Prop :=
  ∀ (s : State) (v : Word), v.getLsbD 1 = true →
    ∃ t, portCycle (writeAt 0x014 v) s = .next t
      ∧ t.ie = false ∧ t.busy = false ∧ t.done = false ∧ t.err = false ∧ t.ovr = false ∧ t.errcode = 0x00#8
      ∧ t.cmd = 0#32 ∧ (∀ j, t.args.get j = 0#32) ∧ (∀ j, t.res.get j = 0#32)
      ∧ t.bsA = [] ∧ t.bsB = [] ∧ t.mxVer = 0 ∧ irq t = false ∧ t.bus = s.bus
      ∧ (s.busy = false → t.cw = s.cw)

/-- 70 R243: a soft reset while a command is in flight leaves that command's CWRAM output region unwritten and keeps every
other byte; a word that is no command has no output region, so all of CWRAM is kept. THE MODEL'S CHOICE: the region is read
from the operands as they stand, whether or not the command would have failed (log entry 5). -/
def Obligations.AbortForgetsOutputRegion : Prop :=
  ∀ s : State, s.busy = true →
    (∀ i : Instr, decodeWord s.cmd = .ok i →
      let region : Nat × Nat := match i with
        | .bsExtract _ => (arg s 2, arg s 1)
        | .rsGen => (arg s 1, arg s 0 + 1)
        | .polyMul => (arg s 4, arg s 1 + arg s 3 - 1)
        | .polyMod => (arg s 4, arg s 3 - 1)
        | .rsEnc => (arg s 3, arg s 2)
        | _ => (0, 0)
      (∀ a, region.1 ≤ a → a < region.1 + region.2 → cwGet? (softReset s).cw a = none)
        ∧ ∀ a, a < region.1 ∨ region.1 + region.2 ≤ a → cwGet? (softReset s).cw a = cwGet? s.cw a)
      ∧ ∀ e : DecodeError, decodeWord s.cmd = .error e → (softReset s).cw = s.cw

/-- The invariant holds after a hard reset (70 R241). -/
def Obligations.ResetMeetsInvariant : Prop := Inv State.reset

/-- Every step keeps the invariant: CWRAM's canonical form, the buffers' capacity (10 R31), the matrix's shape (10 R34),
and a STATUS the life cycle of a command gives (10 R25, 60 R211 to R214). -/
def Obligations.EveryStepKeepsInvariant : Prop :=
  ∀ s t : State, Inv s → step s = .next t → Inv t

/-! ## Whole-machine rules -/

/-- 60 R210, R214: every command ends in exactly one of success and error, in a next state that is idle with DONE set;
an error's code is one of the table's 17. -/
def Obligations.EveryCommandEndsInOneOutcome : Prop :=
  ∀ s : State, ∃ t, engineStep s = .next t ∧ t.busy = false ∧ t.done = true
    ∧ ((t.err = false ∧ t.errcode = 0x00#8) ∨ (t.err = true ∧ 1 ≤ t.errcode.toNat ∧ t.errcode.toNat ≤ 0x11))

/-- 60 R215: an error changes no state but STATUS (and the model's draw counter): buffers, CWRAM, the matrix, RES, ARG and
CMD are as at the issue. -/
def Obligations.ErrorChangesOnlyStatus : Prop :=
  ∀ s t : State, engineStep s = .next t → t.err = true →
    ∃ (c : BitVec 8) (d : Nat), t = errState c { s with draws := d }

/-- 30 R73, R74 (outputs), 41 R100, R109: a command writes what the opcode map names and nothing else. Every CWRAM byte
outside its output region, and every cell it does not write, reads as before. -/
def Obligations.CommandsWriteOnlyTheirOutputs : Prop :=
  ∀ (i : Instr) (s t : State), exec i s = .next t →
    t.ie = s.ie ∧ t.ovr = s.ovr ∧ t.cmd = s.cmd ∧ t.args = s.args ∧ t.rdata = s.rdata ∧ t.bus = s.bus
      ∧ (∀ b, writesBs i ≠ some b → bs t b = bs s b)
      ∧ (writesCw i = false → t.cw = s.cw)
      ∧ (∀ a, a < (outputRegion i s).1 ∨ (outputRegion i s).1 + (outputRegion i s).2 ≤ a →
        cwGet? t.cw a = cwGet? s.cw a)
      ∧ (writesCells i = false → t.grid = s.grid)
      ∧ (∀ x y, ¬WritesCell i s x y → cellAt t.grid x y = cellAt s.grid x y)
      ∧ (i ≠ .mxClear → t.mxVer = s.mxVer)
      ∧ ∀ k, k ∉ writesRes i → t.res.get k = s.res.get k

/-- 30 R77: a command statement on an idle block writes its operands, issues its word, waits, and so ends in the state the
command gives. THE MODEL'S CHOICE: the host operations as a queue taken one a step (log entry 3), WAIT as one item of it,
its busy polls left out (log entry 6), and the engine's transition at once under a WAIT (log entry 2); so the statement
takes n + 3 steps. -/
def Obligations.CommandStatementRuns : Prop :=
  ∀ (s : State) (i : Instr) (ops : List Word), s.busy = false → ops.length = operandCount i →
    ∃ t, exec i { s with
          args := argsAfter s.args 0 ops, cmd := encode i, done := false, err := false, errcode := 0x00#8
          busy := true, bus := [.wait], wait := Config.latency s.draws, draws := s.draws + 1 } = .next t
      ∧ core.run (ops.length + 3) { s with bus := commandStatement i ops }
          = .next { t with bus := [], rdata := statusWord t }

/-- 70 R252: after an issue the engine's transition comes after finitely many host operations, unless a reset
intervenes. THE MODEL'S CHOICE: the bound, the counter `wait` of host operations still to come (log entry 2). -/
def Obligations.EngineTransitionComes : Prop :=
  ∀ s : State, s.busy = true → (∀ p, HostOp.cycle p ∈ s.bus → Harmless p) →
    ∃ k ≤ s.wait, ∃ t, core.run k s = .next t ∧ t.busy = true ∧ t.cmd = s.cmd ∧ t.args = s.args
      ∧ step t = engineStep t
end

