-- ==== Sys2Proof/Laws/Bits.lean ====
section
/-! SUPPORT. Bit sequences: their lengths and their bits (20 R57, 41 R103, R106, R108). -/

namespace Sys2Proof.Machine

@[simp] theorem bitsMsb_length (v n : Nat) : (bitsMsb v n).length = n := by
  induction n with
  | zero => rfl
  | succ n ih => simp [bitsMsb, ih]

/-- Bit i of the low n bits of v, most significant first, is v[n-1-i] (41 R103). -/
theorem bitsMsb_getElem? (v n i : Nat) (h : i < n) : (bitsMsb v n)[i]? = some (v.testBit (n - 1 - i)) := by
  induction n generalizing i with
  | zero => omega
  | succ n ih =>
    cases i with
    | zero => simp [bitsMsb]
    | succ i =>
      simp only [bitsMsb, List.getElem?_cons_succ]
      rw [ih i (by omega)]
      congr 2
      omega

@[simp] theorem extractBytes_length (n : Nat) (l : Bits) : (extractBytes n l).length = n := by
  induction n generalizing l with
  | zero => rfl
  | succ n ih => simp [extractBytes, ih]

/-- Byte j of an extraction is made of the eight bits from 8 j on (41 R106). -/
theorem extractBytes_getElem? (n : Nat) (l : Bits) (j : Nat) (h : j < n) :
    (extractBytes n l)[j]? =
      some (BitVec.ofNat 8 (bitsValue ((List.range 8).map fun u => l.getD (8 * j + u) false))) := by
  induction n generalizing l j with
  | zero => omega
  | succ n ih =>
    cases j with
    | zero => simp [extractBytes]
    | succ j =>
      simp only [extractBytes, List.getElem?_cons_succ]
      rw [ih (l.drop 8) j (by omega)]
      congr 4
      funext u
      simp only [List.getD_eq_getElem?_getD, List.getElem?_drop]
      congr 2
      omega

@[simp] theorem bytesBits_length (v : List Byte) : (bytesBits v).length = 8 * v.length := by
  induction v with
  | nil => rfl
  | cons c v ih =>
    simp only [bytesBits, List.flatMap_cons, List.length_append, bitsMsb_length, List.length_cons] at ih ⊢
    omega

end Sys2Proof.Machine
end

