-- ==== Sys2Proof/Laws/State.lean ====
section
/-! SUPPORT. What each named update of the state does to each field: one lemma per field per update. -/

namespace Sys2Proof.Machine

/-! ## succeed -/

@[simp] theorem succeed_ie (s : State) : (succeed s).ie = s.ie := rfl
@[simp] theorem succeed_busy (s : State) : (succeed s).busy = false := rfl
@[simp] theorem succeed_done (s : State) : (succeed s).done = true := rfl
@[simp] theorem succeed_err (s : State) : (succeed s).err = false := rfl
@[simp] theorem succeed_ovr (s : State) : (succeed s).ovr = s.ovr := rfl
@[simp] theorem succeed_errcode (s : State) : (succeed s).errcode = 0x00#8 := rfl
@[simp] theorem succeed_cmd (s : State) : (succeed s).cmd = s.cmd := rfl
@[simp] theorem succeed_args (s : State) : (succeed s).args = s.args := rfl
@[simp] theorem succeed_res (s : State) : (succeed s).res = s.res := rfl
@[simp] theorem succeed_bsA (s : State) : (succeed s).bsA = s.bsA := rfl
@[simp] theorem succeed_bsB (s : State) : (succeed s).bsB = s.bsB := rfl
@[simp] theorem succeed_cw (s : State) : (succeed s).cw = s.cw := rfl
@[simp] theorem succeed_mxVer (s : State) : (succeed s).mxVer = s.mxVer := rfl
@[simp] theorem succeed_grid (s : State) : (succeed s).grid = s.grid := rfl
@[simp] theorem succeed_rdata (s : State) : (succeed s).rdata = s.rdata := rfl
@[simp] theorem succeed_bus (s : State) : (succeed s).bus = s.bus := rfl
@[simp] theorem succeed_wait (s : State) : (succeed s).wait = 0 := rfl
@[simp] theorem succeed_draws (s : State) : (succeed s).draws = s.draws := rfl

/-! ## failWith -/

@[simp] theorem failWith_ie (c : ErrCode) (s : State) : (failWith c s).ie = s.ie := rfl
@[simp] theorem failWith_busy (c : ErrCode) (s : State) : (failWith c s).busy = false := rfl
@[simp] theorem failWith_done (c : ErrCode) (s : State) : (failWith c s).done = true := rfl
@[simp] theorem failWith_err (c : ErrCode) (s : State) : (failWith c s).err = true := rfl
@[simp] theorem failWith_ovr (c : ErrCode) (s : State) : (failWith c s).ovr = s.ovr := rfl
@[simp] theorem failWith_errcode (c : ErrCode) (s : State) : (failWith c s).errcode = c.number := rfl
@[simp] theorem failWith_cmd (c : ErrCode) (s : State) : (failWith c s).cmd = s.cmd := rfl
@[simp] theorem failWith_args (c : ErrCode) (s : State) : (failWith c s).args = s.args := rfl
@[simp] theorem failWith_res (c : ErrCode) (s : State) : (failWith c s).res = s.res := rfl
@[simp] theorem failWith_bsA (c : ErrCode) (s : State) : (failWith c s).bsA = s.bsA := rfl
@[simp] theorem failWith_bsB (c : ErrCode) (s : State) : (failWith c s).bsB = s.bsB := rfl
@[simp] theorem failWith_cw (c : ErrCode) (s : State) : (failWith c s).cw = s.cw := rfl
@[simp] theorem failWith_mxVer (c : ErrCode) (s : State) : (failWith c s).mxVer = s.mxVer := rfl
@[simp] theorem failWith_grid (c : ErrCode) (s : State) : (failWith c s).grid = s.grid := rfl
@[simp] theorem failWith_rdata (c : ErrCode) (s : State) : (failWith c s).rdata = s.rdata := rfl
@[simp] theorem failWith_bus (c : ErrCode) (s : State) : (failWith c s).bus = s.bus := rfl
@[simp] theorem failWith_wait (c : ErrCode) (s : State) : (failWith c s).wait = 0 := rfl
@[simp] theorem failWith_draws (c : ErrCode) (s : State) : (failWith c s).draws = s.draws := rfl

/-! ## overrun -/

@[simp] theorem overrun_ie (s : State) : (overrun s).ie = s.ie := rfl
@[simp] theorem overrun_busy (s : State) : (overrun s).busy = s.busy := rfl
@[simp] theorem overrun_done (s : State) : (overrun s).done = s.done := rfl
@[simp] theorem overrun_err (s : State) : (overrun s).err = s.err := rfl
@[simp] theorem overrun_ovr (s : State) : (overrun s).ovr = true := rfl
@[simp] theorem overrun_errcode (s : State) : (overrun s).errcode = s.errcode := rfl
@[simp] theorem overrun_cmd (s : State) : (overrun s).cmd = s.cmd := rfl
@[simp] theorem overrun_args (s : State) : (overrun s).args = s.args := rfl
@[simp] theorem overrun_res (s : State) : (overrun s).res = s.res := rfl
@[simp] theorem overrun_bsA (s : State) : (overrun s).bsA = s.bsA := rfl
@[simp] theorem overrun_bsB (s : State) : (overrun s).bsB = s.bsB := rfl
@[simp] theorem overrun_cw (s : State) : (overrun s).cw = s.cw := rfl
@[simp] theorem overrun_mxVer (s : State) : (overrun s).mxVer = s.mxVer := rfl
@[simp] theorem overrun_grid (s : State) : (overrun s).grid = s.grid := rfl
@[simp] theorem overrun_rdata (s : State) : (overrun s).rdata = s.rdata := rfl
@[simp] theorem overrun_bus (s : State) : (overrun s).bus = s.bus := rfl
@[simp] theorem overrun_wait (s : State) : (overrun s).wait = s.wait := rfl
@[simp] theorem overrun_draws (s : State) : (overrun s).draws = s.draws := rfl

/-! ## issue -/

@[simp] theorem issue_ie (w : Word) (s : State) : (issue w s).ie = s.ie := rfl
@[simp] theorem issue_busy (w : Word) (s : State) : (issue w s).busy = true := rfl
@[simp] theorem issue_done (w : Word) (s : State) : (issue w s).done = false := rfl
@[simp] theorem issue_err (w : Word) (s : State) : (issue w s).err = false := rfl
@[simp] theorem issue_ovr (w : Word) (s : State) : (issue w s).ovr = s.ovr := rfl
@[simp] theorem issue_errcode (w : Word) (s : State) : (issue w s).errcode = 0x00#8 := rfl
@[simp] theorem issue_cmd (w : Word) (s : State) : (issue w s).cmd = w := rfl
@[simp] theorem issue_args (w : Word) (s : State) : (issue w s).args = s.args := rfl
@[simp] theorem issue_res (w : Word) (s : State) : (issue w s).res = s.res := rfl
@[simp] theorem issue_bsA (w : Word) (s : State) : (issue w s).bsA = s.bsA := rfl
@[simp] theorem issue_bsB (w : Word) (s : State) : (issue w s).bsB = s.bsB := rfl
@[simp] theorem issue_cw (w : Word) (s : State) : (issue w s).cw = s.cw := rfl
@[simp] theorem issue_mxVer (w : Word) (s : State) : (issue w s).mxVer = s.mxVer := rfl
@[simp] theorem issue_grid (w : Word) (s : State) : (issue w s).grid = s.grid := rfl
@[simp] theorem issue_rdata (w : Word) (s : State) : (issue w s).rdata = s.rdata := rfl
@[simp] theorem issue_bus (w : Word) (s : State) : (issue w s).bus = s.bus := rfl
@[simp] theorem issue_wait (w : Word) (s : State) : (issue w s).wait = Config.latency s.draws := rfl
@[simp] theorem issue_draws (w : Word) (s : State) : (issue w s).draws = s.draws + 1 := rfl

/-! ## issueNow -/

@[simp] theorem issueNow_ie (w : Word) (s : State) : (issueNow w s).ie = s.ie := rfl
@[simp] theorem issueNow_busy (w : Word) (s : State) : (issueNow w s).busy = true := rfl
@[simp] theorem issueNow_done (w : Word) (s : State) : (issueNow w s).done = false := rfl
@[simp] theorem issueNow_err (w : Word) (s : State) : (issueNow w s).err = false := rfl
@[simp] theorem issueNow_ovr (w : Word) (s : State) : (issueNow w s).ovr = s.ovr := rfl
@[simp] theorem issueNow_errcode (w : Word) (s : State) : (issueNow w s).errcode = 0x00#8 := rfl
@[simp] theorem issueNow_cmd (w : Word) (s : State) : (issueNow w s).cmd = w := rfl
@[simp] theorem issueNow_args (w : Word) (s : State) : (issueNow w s).args = s.args := rfl
@[simp] theorem issueNow_res (w : Word) (s : State) : (issueNow w s).res = s.res := rfl
@[simp] theorem issueNow_bsA (w : Word) (s : State) : (issueNow w s).bsA = s.bsA := rfl
@[simp] theorem issueNow_bsB (w : Word) (s : State) : (issueNow w s).bsB = s.bsB := rfl
@[simp] theorem issueNow_cw (w : Word) (s : State) : (issueNow w s).cw = s.cw := rfl
@[simp] theorem issueNow_mxVer (w : Word) (s : State) : (issueNow w s).mxVer = s.mxVer := rfl
@[simp] theorem issueNow_grid (w : Word) (s : State) : (issueNow w s).grid = s.grid := rfl
@[simp] theorem issueNow_rdata (w : Word) (s : State) : (issueNow w s).rdata = s.rdata := rfl
@[simp] theorem issueNow_bus (w : Word) (s : State) : (issueNow w s).bus = s.bus := rfl
@[simp] theorem issueNow_wait (w : Word) (s : State) : (issueNow w s).wait = 0 := rfl
@[simp] theorem issueNow_draws (w : Word) (s : State) : (issueNow w s).draws = s.draws := rfl

/-! ## writeStatus -/

@[simp] theorem writeStatus_ie (w : Word) (s : State) : (writeStatus w s).ie = s.ie := rfl
@[simp] theorem writeStatus_busy (w : Word) (s : State) : (writeStatus w s).busy = s.busy := rfl
@[simp] theorem writeStatus_done (w : Word) (s : State) : (writeStatus w s).done = (s.done && !w.getLsbD 1) := rfl
@[simp] theorem writeStatus_err (w : Word) (s : State) : (writeStatus w s).err = s.err := rfl
@[simp] theorem writeStatus_ovr (w : Word) (s : State) : (writeStatus w s).ovr = (s.ovr && !w.getLsbD 3) := rfl
@[simp] theorem writeStatus_errcode (w : Word) (s : State) : (writeStatus w s).errcode = s.errcode := rfl
@[simp] theorem writeStatus_cmd (w : Word) (s : State) : (writeStatus w s).cmd = s.cmd := rfl
@[simp] theorem writeStatus_args (w : Word) (s : State) : (writeStatus w s).args = s.args := rfl
@[simp] theorem writeStatus_res (w : Word) (s : State) : (writeStatus w s).res = s.res := rfl
@[simp] theorem writeStatus_bsA (w : Word) (s : State) : (writeStatus w s).bsA = s.bsA := rfl
@[simp] theorem writeStatus_bsB (w : Word) (s : State) : (writeStatus w s).bsB = s.bsB := rfl
@[simp] theorem writeStatus_cw (w : Word) (s : State) : (writeStatus w s).cw = s.cw := rfl
@[simp] theorem writeStatus_mxVer (w : Word) (s : State) : (writeStatus w s).mxVer = s.mxVer := rfl
@[simp] theorem writeStatus_grid (w : Word) (s : State) : (writeStatus w s).grid = s.grid := rfl
@[simp] theorem writeStatus_rdata (w : Word) (s : State) : (writeStatus w s).rdata = s.rdata := rfl
@[simp] theorem writeStatus_bus (w : Word) (s : State) : (writeStatus w s).bus = s.bus := rfl
@[simp] theorem writeStatus_wait (w : Word) (s : State) : (writeStatus w s).wait = s.wait := rfl
@[simp] theorem writeStatus_draws (w : Word) (s : State) : (writeStatus w s).draws = s.draws := rfl

/-! ## hostRead -/

@[simp] theorem hostRead_ie (r : Reg) (s : State) : (hostRead r s).ie = s.ie := rfl
@[simp] theorem hostRead_busy (r : Reg) (s : State) : (hostRead r s).busy = s.busy := rfl
@[simp] theorem hostRead_done (r : Reg) (s : State) : (hostRead r s).done = s.done := rfl
@[simp] theorem hostRead_err (r : Reg) (s : State) : (hostRead r s).err = s.err := rfl
@[simp] theorem hostRead_ovr (r : Reg) (s : State) : (hostRead r s).ovr = s.ovr := rfl
@[simp] theorem hostRead_errcode (r : Reg) (s : State) : (hostRead r s).errcode = s.errcode := rfl
@[simp] theorem hostRead_cmd (r : Reg) (s : State) : (hostRead r s).cmd = s.cmd := rfl
@[simp] theorem hostRead_args (r : Reg) (s : State) : (hostRead r s).args = s.args := rfl
@[simp] theorem hostRead_res (r : Reg) (s : State) : (hostRead r s).res = s.res := rfl
@[simp] theorem hostRead_bsA (r : Reg) (s : State) : (hostRead r s).bsA = s.bsA := rfl
@[simp] theorem hostRead_bsB (r : Reg) (s : State) : (hostRead r s).bsB = s.bsB := rfl
@[simp] theorem hostRead_cw (r : Reg) (s : State) : (hostRead r s).cw = s.cw := rfl
@[simp] theorem hostRead_mxVer (r : Reg) (s : State) : (hostRead r s).mxVer = s.mxVer := rfl
@[simp] theorem hostRead_grid (r : Reg) (s : State) : (hostRead r s).grid = s.grid := rfl
@[simp] theorem hostRead_rdata (r : Reg) (s : State) : (hostRead r s).rdata = (readReg r s).1 := rfl
@[simp] theorem hostRead_bus (r : Reg) (s : State) : (hostRead r s).bus = s.bus := rfl
@[simp] theorem hostRead_wait (r : Reg) (s : State) : (hostRead r s).wait = s.wait := rfl
@[simp] theorem hostRead_draws (r : Reg) (s : State) : (hostRead r s).draws = (readReg r s).2 := rfl

/-! ## hardReset -/

@[simp] theorem hardReset_ie (s : State) : (hardReset s).ie = false := rfl
@[simp] theorem hardReset_busy (s : State) : (hardReset s).busy = false := rfl
@[simp] theorem hardReset_done (s : State) : (hardReset s).done = false := rfl
@[simp] theorem hardReset_err (s : State) : (hardReset s).err = false := rfl
@[simp] theorem hardReset_ovr (s : State) : (hardReset s).ovr = false := rfl
@[simp] theorem hardReset_errcode (s : State) : (hardReset s).errcode = 0x00#8 := rfl
@[simp] theorem hardReset_cmd (s : State) : (hardReset s).cmd = 0#32 := rfl
@[simp] theorem hardReset_args (s : State) : (hardReset s).args = State.reset.args := rfl
@[simp] theorem hardReset_res (s : State) : (hardReset s).res = State.reset.res := rfl
@[simp] theorem hardReset_bsA (s : State) : (hardReset s).bsA = [] := rfl
@[simp] theorem hardReset_bsB (s : State) : (hardReset s).bsB = [] := rfl
@[simp] theorem hardReset_cw (s : State) : (hardReset s).cw = [] := rfl
@[simp] theorem hardReset_mxVer (s : State) : (hardReset s).mxVer = 0 := rfl
@[simp] theorem hardReset_grid (s : State) : (hardReset s).grid = [] := rfl
@[simp] theorem hardReset_rdata (s : State) : (hardReset s).rdata = s.rdata := rfl
@[simp] theorem hardReset_bus (s : State) : (hardReset s).bus = s.bus := rfl
@[simp] theorem hardReset_wait (s : State) : (hardReset s).wait = 0 := rfl
@[simp] theorem hardReset_draws (s : State) : (hardReset s).draws = s.draws := rfl

/-! ## softReset -/

@[simp] theorem softReset_ie (s : State) : (softReset s).ie = false := rfl
@[simp] theorem softReset_busy (s : State) : (softReset s).busy = false := rfl
@[simp] theorem softReset_done (s : State) : (softReset s).done = false := rfl
@[simp] theorem softReset_err (s : State) : (softReset s).err = false := rfl
@[simp] theorem softReset_ovr (s : State) : (softReset s).ovr = false := rfl
@[simp] theorem softReset_errcode (s : State) : (softReset s).errcode = 0x00#8 := rfl
@[simp] theorem softReset_cmd (s : State) : (softReset s).cmd = 0#32 := rfl
@[simp] theorem softReset_args (s : State) : (softReset s).args = State.reset.args := rfl
@[simp] theorem softReset_res (s : State) : (softReset s).res = State.reset.res := rfl
@[simp] theorem softReset_bsA (s : State) : (softReset s).bsA = [] := rfl
@[simp] theorem softReset_bsB (s : State) : (softReset s).bsB = [] := rfl
@[simp] theorem softReset_cw (s : State) : (softReset s).cw = cwAfterSoftReset s := rfl
@[simp] theorem softReset_mxVer (s : State) : (softReset s).mxVer = 0 := rfl
@[simp] theorem softReset_grid (s : State) : (softReset s).grid = [] := rfl
@[simp] theorem softReset_rdata (s : State) : (softReset s).rdata = s.rdata := rfl
@[simp] theorem softReset_bus (s : State) : (softReset s).bus = s.bus := rfl
@[simp] theorem softReset_wait (s : State) : (softReset s).wait = 0 := rfl
@[simp] theorem softReset_draws (s : State) : (softReset s).draws = s.draws := rfl

/-! ## setRes and setBs -/

@[simp] theorem setRes_ie (s : State) (i : Fin 5) (v : Word) : (setRes s i v).ie = s.ie := rfl
@[simp] theorem setRes_busy (s : State) (i : Fin 5) (v : Word) : (setRes s i v).busy = s.busy := rfl
@[simp] theorem setRes_done (s : State) (i : Fin 5) (v : Word) : (setRes s i v).done = s.done := rfl
@[simp] theorem setRes_err (s : State) (i : Fin 5) (v : Word) : (setRes s i v).err = s.err := rfl
@[simp] theorem setRes_ovr (s : State) (i : Fin 5) (v : Word) : (setRes s i v).ovr = s.ovr := rfl
@[simp] theorem setRes_errcode (s : State) (i : Fin 5) (v : Word) : (setRes s i v).errcode = s.errcode := rfl
@[simp] theorem setRes_cmd (s : State) (i : Fin 5) (v : Word) : (setRes s i v).cmd = s.cmd := rfl
@[simp] theorem setRes_args (s : State) (i : Fin 5) (v : Word) : (setRes s i v).args = s.args := rfl
@[simp] theorem setRes_res (s : State) (i : Fin 5) (v : Word) : (setRes s i v).res = s.res.set i v := rfl
@[simp] theorem setRes_bsA (s : State) (i : Fin 5) (v : Word) : (setRes s i v).bsA = s.bsA := rfl
@[simp] theorem setRes_bsB (s : State) (i : Fin 5) (v : Word) : (setRes s i v).bsB = s.bsB := rfl
@[simp] theorem setRes_cw (s : State) (i : Fin 5) (v : Word) : (setRes s i v).cw = s.cw := rfl
@[simp] theorem setRes_mxVer (s : State) (i : Fin 5) (v : Word) : (setRes s i v).mxVer = s.mxVer := rfl
@[simp] theorem setRes_grid (s : State) (i : Fin 5) (v : Word) : (setRes s i v).grid = s.grid := rfl
@[simp] theorem setRes_rdata (s : State) (i : Fin 5) (v : Word) : (setRes s i v).rdata = s.rdata := rfl
@[simp] theorem setRes_bus (s : State) (i : Fin 5) (v : Word) : (setRes s i v).bus = s.bus := rfl
@[simp] theorem setRes_wait (s : State) (i : Fin 5) (v : Word) : (setRes s i v).wait = s.wait := rfl
@[simp] theorem setRes_draws (s : State) (i : Fin 5) (v : Word) : (setRes s i v).draws = s.draws := rfl
@[simp] theorem setBs_ie (s : State) (b : Buf) (v : Bits) : (setBs s b v).ie = s.ie := by cases b <;> rfl
@[simp] theorem setBs_busy (s : State) (b : Buf) (v : Bits) : (setBs s b v).busy = s.busy := by cases b <;> rfl
@[simp] theorem setBs_done (s : State) (b : Buf) (v : Bits) : (setBs s b v).done = s.done := by cases b <;> rfl
@[simp] theorem setBs_err (s : State) (b : Buf) (v : Bits) : (setBs s b v).err = s.err := by cases b <;> rfl
@[simp] theorem setBs_ovr (s : State) (b : Buf) (v : Bits) : (setBs s b v).ovr = s.ovr := by cases b <;> rfl
@[simp] theorem setBs_errcode (s : State) (b : Buf) (v : Bits) : (setBs s b v).errcode = s.errcode := by cases b <;> rfl
@[simp] theorem setBs_cmd (s : State) (b : Buf) (v : Bits) : (setBs s b v).cmd = s.cmd := by cases b <;> rfl
@[simp] theorem setBs_args (s : State) (b : Buf) (v : Bits) : (setBs s b v).args = s.args := by cases b <;> rfl
@[simp] theorem setBs_res (s : State) (b : Buf) (v : Bits) : (setBs s b v).res = s.res := by cases b <;> rfl
@[simp] theorem setBs_cw (s : State) (b : Buf) (v : Bits) : (setBs s b v).cw = s.cw := by cases b <;> rfl
@[simp] theorem setBs_mxVer (s : State) (b : Buf) (v : Bits) : (setBs s b v).mxVer = s.mxVer := by cases b <;> rfl
@[simp] theorem setBs_grid (s : State) (b : Buf) (v : Bits) : (setBs s b v).grid = s.grid := by cases b <;> rfl
@[simp] theorem setBs_rdata (s : State) (b : Buf) (v : Bits) : (setBs s b v).rdata = s.rdata := by cases b <;> rfl
@[simp] theorem setBs_bus (s : State) (b : Buf) (v : Bits) : (setBs s b v).bus = s.bus := by cases b <;> rfl
@[simp] theorem setBs_wait (s : State) (b : Buf) (v : Bits) : (setBs s b v).wait = s.wait := by cases b <;> rfl
@[simp] theorem setBs_draws (s : State) (b : Buf) (v : Bits) : (setBs s b v).draws = s.draws := by cases b <;> rfl

@[simp] theorem bs_setBs_same (s : State) (b : Buf) (v : Bits) : bs (setBs s b v) b = v := by cases b <;> rfl
@[simp] theorem bs_setBs_other (s : State) (b : Buf) (v : Bits) : bs (setBs s b v) b.other = bs s b.other := by
  cases b <;> rfl
@[simp] theorem setBs_A_bsA (s : State) (v : Bits) : (setBs s .A v).bsA = v := rfl
@[simp] theorem setBs_A_bsB (s : State) (v : Bits) : (setBs s .A v).bsB = s.bsB := rfl
@[simp] theorem setBs_B_bsA (s : State) (v : Bits) : (setBs s .B v).bsA = s.bsA := rfl
@[simp] theorem setBs_B_bsB (s : State) (v : Bits) : (setBs s .B v).bsB = v := rfl

/-! ## Register files -/

@[simp] theorem ArgRegs.get_set_same (a : ArgRegs) (i : Fin 6) (v : Word) : (a.set i v).get i = v := by
  fin_cases i <;> rfl
theorem ArgRegs.get_set_other (a : ArgRegs) (i j : Fin 6) (v : Word) (h : j ≠ i) : (a.set i v).get j = a.get j := by
  fin_cases i <;> fin_cases j <;> first | rfl | exact absurd rfl h
@[simp] theorem ResRegs.get_set_same (a : ResRegs) (i : Fin 5) (v : Word) : (a.set i v).get i = v := by
  fin_cases i <;> rfl
theorem ResRegs.get_set_other (a : ResRegs) (i j : Fin 5) (v : Word) (h : j ≠ i) : (a.set i v).get j = a.get j := by
  fin_cases i <;> fin_cases j <;> first | rfl | exact absurd rfl h

/-! ## Completions as outcomes -/

@[simp] theorem complete_eq (s : State) : complete s = .next (succeed s) := rfl
@[simp] theorem raiseError_eq (c : ErrCode) (s : State) : raiseError c s = .next (failWith c s) := rfl

end Sys2Proof.Machine
end

