-- ==== Sys2Proof/Laws/Exec.lean ====
section
/-! SUPPORT. Once for all commands: what a meaning can do (60 R210, R212, R213). Whole-machine facts cite it instead of
unfolding the meanings. -/

namespace Sys2Proof.Machine

/-- What a command may not write: CTRL, STATUS, CMD, ARG (10 R24 to R27), and the host's side. Its own writes are to the
result registers, the buffers, CWRAM, the matrix and the draw counter. -/
structure EngineWrites (s u : State) : Prop where
  ie : u.ie = s.ie
  busy : u.busy = s.busy
  done : u.done = s.done
  err : u.err = s.err
  ovr : u.ovr = s.ovr
  errcode : u.errcode = s.errcode
  cmd : u.cmd = s.cmd
  args : u.args = s.args
  rdata : u.rdata = s.rdata
  bus : u.bus = s.bus
  wait : u.wait = s.wait

/-- An outcome of a command: success after the engine's own writes, or an error that at most drew free values. -/
inductive Completes (s : State) : Result → Prop where
  | ok (u : State) (h : EngineWrites s u) : Completes s (.next (succeed u))
  | error (c : ErrCode) (d : Nat) : Completes s (.next (failWith c { s with draws := d }))

theorem completes_complete {s u : State} (h : EngineWrites s u) : Completes s (complete u) := .ok u h

theorem completes_raise (s : State) (c : ErrCode) : Completes s (raiseError c s) := .error c s.draws

theorem EngineWrites.refl (s : State) : EngineWrites s s := by constructor <;> rfl

theorem EngineWrites.setRes {s u : State} (h : EngineWrites s u) (i : Fin 5) (v : Word) :
    EngineWrites s (setRes u i v) := ⟨h.1, h.2, h.3, h.4, h.5, h.6, h.7, h.8, h.9, h.10, h.11⟩

theorem EngineWrites.setBs {s u : State} (h : EngineWrites s u) (b : Buf) (v : Bits) :
    EngineWrites s (setBs u b v) := by
  cases b <;> exact ⟨h.1, h.2, h.3, h.4, h.5, h.6, h.7, h.8, h.9, h.10, h.11⟩

/-- Writes of CWRAM, the matrix and the draw counter. -/
theorem EngineWrites.store {s u : State} (h : EngineWrites s u) (m : List Host.Cell) (v : Nat)
    (g : List (List MxCell)) (d : Nat) : EngineWrites s { u with cw := m, mxVer := v, grid := g, draws := d } :=
  ⟨h.1, h.2, h.3, h.4, h.5, h.6, h.7, h.8, h.9, h.10, h.11⟩

theorem completes_execBsAppendCw (b : Buf) (s : State) : Completes s (execBsAppendCw b s) := by
  unfold execBsAppendCw
  split_ifs
  · exact completes_raise _ _
  · exact completes_raise _ _
  · exact completes_complete (((EngineWrites.refl s).setBs b _).store _ _ _ _)

theorem completes_execPolyMod (s : State) : Completes s (execPolyMod s) := by
  unfold execPolyMod
  split_ifs
  any_goals exact completes_raise _ _
  dsimp only
  split_ifs
  · exact .error _ _
  · exact completes_complete ((EngineWrites.refl s).store _ _ _ _)

theorem completes_execMxSet (s : State) : Completes s (execMxSet s) := by
  unfold execMxSet
  split
  · exact completes_raise _ _
  · split_ifs
    any_goals exact completes_raise _ _
    exact completes_complete ((EngineWrites.refl s).store _ _ _ _)

theorem completes_execMxPlace (b : Buf) (s : State) : Completes s (execMxPlace b s) := by
  unfold execMxPlace
  split
  · exact completes_raise _ _
  · split_ifs
    any_goals exact completes_raise _ _
    exact completes_complete (((((EngineWrites.refl s).store _ _ _ _).setRes _ _).setRes _ _).setRes _ _)

/-- Every command ends in one of the two completions, and does nothing else to what the host owns. -/
theorem completes_exec (i : Instr) (s : State) : Completes s (exec i s) := by
  have h := EngineWrites.refl s
  cases i with
  | nop => exact completes_complete h
  | bsClear b => exact completes_complete (h.setBs b _)
  | bsAppendBit b =>
    simp only [exec, execBsAppendBit]
    split_ifs
    any_goals exact completes_raise _ _
    exact completes_complete (h.setBs b _)
  | bsAppendBits b =>
    simp only [exec, execBsAppendBits]
    split_ifs
    any_goals exact completes_raise _ _
    exact completes_complete (h.setBs b _)
  | bsAppendBs b =>
    simp only [exec, execBsAppendBs]
    split_ifs
    any_goals exact completes_raise _ _
    exact completes_complete (h.setBs b _)
  | bsXor b =>
    simp only [exec, execBsXor]
    split_ifs
    any_goals exact completes_raise _ _
    exact completes_complete (h.setBs b _)
  | bsExtract b =>
    simp only [exec, execBsExtract]
    split_ifs
    any_goals exact completes_raise _ _
    exact completes_complete (h.store _ _ _ _)
  | bsGetBit b =>
    simp only [exec, execBsGetBit]
    split_ifs
    any_goals exact completes_raise _ _
    exact completes_complete (h.setRes _ _)
  | bsAppendCw b => exact completes_execBsAppendCw b s
  | gfAdd =>
    simp only [exec, execGfAdd]
    split_ifs
    any_goals exact completes_raise _ _
    exact completes_complete (h.setRes _ _)
  | gfMul =>
    simp only [exec, execGfMul]
    split_ifs
    any_goals exact completes_raise _ _
    exact completes_complete (h.setRes _ _)
  | gfInv =>
    simp only [exec, execGfInv]
    split_ifs
    any_goals exact completes_raise _ _
    exact completes_complete (h.setRes _ _)
  | gfExp =>
    simp only [exec, execGfExp]
    split_ifs
    any_goals exact completes_raise _ _
    exact completes_complete (h.setRes _ _)
  | gfLog =>
    simp only [exec, execGfLog]
    split_ifs
    any_goals exact completes_raise _ _
    exact completes_complete (h.setRes _ _)
  | rsGen =>
    simp only [exec, execRsGen]
    split_ifs
    any_goals exact completes_raise _ _
    exact completes_complete (h.store _ _ _ _)
  | polyMul =>
    simp only [exec, execPolyMul]
    split_ifs
    any_goals exact completes_raise _ _
    exact completes_complete (h.store _ _ _ _)
  | polyMod => exact completes_execPolyMod s
  | rsEnc =>
    simp only [exec, execRsEnc]
    split_ifs
    any_goals exact completes_raise _ _
    exact completes_complete (h.store _ _ _ _)
  | bchCode =>
    simp only [exec, execBchCode]
    split_ifs
    any_goals exact completes_raise _ _
    exact completes_complete ((h.setRes _ _).setRes _ _)
  | fmtInfo =>
    simp only [exec, execFmtInfo]
    split_ifs
    any_goals exact completes_raise _ _
    exact completes_complete (((h.setRes _ _).setRes _ _).setRes _ _)
  | verInfo =>
    simp only [exec, execVerInfo]
    split_ifs
    any_goals exact completes_raise _ _
    exact completes_complete ((h.setRes _ _).setRes _ _)
  | mxClear =>
    simp only [exec, execMxClear]
    split_ifs
    any_goals exact completes_raise _ _
    exact completes_complete (h.store _ _ _ _)
  | mxSet => exact completes_execMxSet s
  | mxGet =>
    simp only [exec, execMxGet]
    split_ifs
    any_goals exact completes_raise _ _
    exact completes_complete (h.setRes _ _)
  | mxPlace b => exact completes_execMxPlace b s
  | mxScore =>
    simp only [exec, execMxScore]
    split_ifs
    any_goals exact completes_raise _ _
    exact completes_complete (((((h.setRes _ _).setRes _ _).setRes _ _).setRes _ _).setRes _ _)
  | mxMaskbit =>
    simp only [exec, execMxMaskbit]
    split_ifs
    any_goals exact completes_raise _ _
    exact completes_complete (h.setRes _ _)

end Sys2Proof.Machine
end

