-- ==== Sys2Proof/Laws/Gf.lean ====
section
/-! SUPPORT. The field tables: the recurrence of 42 R120 gives EXP, and LOG is its inverse (42 R121). -/

namespace Sys2Proof.Machine

theorem gfexp_zero : gfexp 0 = 1#8 := by decide

theorem gfexp_succ_fin : ∀ i : Fin 255, (gfexp (i + 1)).toNat = Safety.timesTwo (gfexp i).toNat := by decide +kernel

theorem gflog_gfexp_fin : ∀ i : Fin 255, gflog (gfexp i) = i := by decide +kernel

theorem gfexp_gflog_fin : ∀ a : Fin 256, a ≠ 0 →
    gfexp (gflog (BitVec.ofFin a)) = BitVec.ofFin a ∧ gflog (BitVec.ofFin a) < 255 := by decide +kernel

theorem gfexp_ne_zero_fin : ∀ i : Fin 256, gfexp i ≠ 0#8 := by decide +kernel

theorem gflog_gfexp {i : Nat} (h : i < 255) : gflog (gfexp i) = i := gflog_gfexp_fin ⟨i, h⟩

theorem gfexp_ne_zero {i : Nat} (h : i < 256) : gfexp i ≠ 0#8 := gfexp_ne_zero_fin ⟨i, h⟩

theorem gfexp_gflog {a : Byte} (h : a ≠ 0#8) : gfexp (gflog a) = a :=
  (gfexp_gflog_fin a.toFin fun h0 => h (BitVec.eq_of_toFin_eq h0)).1

theorem gflog_lt {a : Byte} (h : a ≠ 0#8) : gflog a < 255 :=
  (gfexp_gflog_fin a.toFin fun h0 => h (BitVec.eq_of_toFin_eq h0)).2

@[simp] theorem gfmul_zero_left (b : Byte) : gfmul 0#8 b = 0#8 := by simp [gfmul]

@[simp] theorem gfmul_zero_right (a : Byte) : gfmul a 0#8 = 0#8 := by simp [gfmul]

/-- The product of two non-zero elements, through the logarithms. -/
theorem gfmul_of_ne_zero {a b : Byte} (ha : a ≠ 0#8) (hb : b ≠ 0#8) :
    gfmul a b = gfexp ((gflog a + gflog b) % 255) := by simp [gfmul, ha, hb]

theorem gfmul_ne_zero {a b : Byte} (ha : a ≠ 0#8) (hb : b ≠ 0#8) : gfmul a b ≠ 0#8 := by
  rw [gfmul_of_ne_zero ha hb]
  exact gfexp_ne_zero (by omega)

end Sys2Proof.Machine
end

