-- ==== Sys2Proof/Laws/Memory.lean ====
section
/-! SUPPORT. CWRAM: a read after a write, and every operation keeps the canonical form. -/

namespace Sys2Proof.Machine

/-! ## Read after write -/

@[simp] theorem cwGet?_nil (a : Nat) : cwGet? [] a = none := rfl

@[simp] theorem cwGet?_cwSet_same (m : List Host.Cell) (a : Nat) (v : Byte) : cwGet? (cwSet m a v) a = some v := by
  induction m with
  | nil => simp [cwSet, cwGet?]
  | cons c m ih =>
    obtain ⟨b, u⟩ := c
    simp only [cwSet]
    split_ifs with h1 h2
    · simp [cwGet?]
    · simp [cwGet?]
    · simp [cwGet?, h2, ih]

theorem cwGet?_cwSet_other (m : List Host.Cell) {a b : Nat} (v : Byte) (h : b ≠ a) :
    cwGet? (cwSet m a v) b = cwGet? m b := by
  induction m with
  | nil => simp [cwSet, cwGet?, h]
  | cons c m ih =>
    obtain ⟨e, u⟩ := c
    simp only [cwSet]
    split_ifs with h1 h2
    · simp [cwGet?, h]
    · subst h2; simp [cwGet?, h]
    · simp [cwGet?, ih]

theorem cwGet?_writeBytes_other (v : List Byte) (m : List Host.Cell) (off a : Nat)
    (h : a < off ∨ off + v.length ≤ a) : cwGet? (writeBytes m off v) a = cwGet? m a := by
  induction v generalizing m off with
  | nil => rfl
  | cons u v ih =>
    simp only [List.length_cons] at h
    rw [writeBytes, ih _ _ (by omega), cwGet?_cwSet_other _ _ (by omega)]

theorem cwGet?_writeBytes_same (v : List Byte) (m : List Host.Cell) (off j : Nat) (h : j < v.length) :
    cwGet? (writeBytes m off v) (off + j) = v[j]? := by
  induction v generalizing m off j with
  | nil => simp at h
  | cons u v ih =>
    rw [writeBytes]
    cases j with
    | zero => rw [cwGet?_writeBytes_other _ _ _ _ (by omega)]; simp
    | succ j =>
      have := ih (cwSet m off u) (off + 1) j (by simpa using h)
      rw [show off + (j + 1) = off + 1 + j by omega, this]; simp

theorem cwGet?_cwForget_inside (m : List Host.Cell) (off n a : Nat) (h : off ≤ a ∧ a < off + n) :
    cwGet? (cwForget m off n) a = none := by
  induction m with
  | nil => rfl
  | cons c m ih =>
    unfold cwForget at ih ⊢
    by_cases hb : off ≤ c.1 ∧ c.1 < off + n
    · have hd : decide (¬(off ≤ c.1 ∧ c.1 < off + n)) = false := decide_eq_false (not_not.mpr hb)
      simp only [List.filter_cons, hd]; exact ih
    · have hd : decide (¬(off ≤ c.1 ∧ c.1 < off + n)) = true := decide_eq_true hb
      have hne : a ≠ c.1 := fun e => hb (e ▸ h)
      simp only [List.filter_cons, hd, if_true, cwGet?, hne, if_false]; exact ih

theorem cwGet?_cwForget_outside (m : List Host.Cell) (off n a : Nat) (h : ¬(off ≤ a ∧ a < off + n)) :
    cwGet? (cwForget m off n) a = cwGet? m a := by
  induction m with
  | nil => rfl
  | cons c m ih =>
    unfold cwForget at ih ⊢
    by_cases hb : off ≤ c.1 ∧ c.1 < off + n
    · have hne : a ≠ c.1 := fun e => h (e ▸ hb)
      have hd : decide (¬(off ≤ c.1 ∧ c.1 < off + n)) = false := decide_eq_false (not_not.mpr hb)
      simp only [List.filter_cons, hd, cwGet?, hne, if_false]; exact ih
    · have hd : decide (¬(off ≤ c.1 ∧ c.1 < off + n)) = true := decide_eq_true hb
      simp only [List.filter_cons, hd, if_true, cwGet?]; rw [ih]

/-! ## What a read gives -/

theorem readByte_written {m : List Host.Cell} {a : Nat} {c : Byte} (h : cwGet? m a = some c) (d : Nat) :
    readByte m a d = (c, d) := by simp [readByte, h]

theorem readByte_unwritten {m : List Host.Cell} {a : Nat} (h : cwGet? m a = none) (d : Nat) :
    readByte m a d = (Config.freeByte d, d + 1) := by simp [readByte, h]

@[simp] theorem readBytes_length (m : List Host.Cell) (a n d : Nat) : (readBytes m a n d).1.length = n := by
  induction n generalizing a d with
  | zero => rfl
  | succ n ih => simp [readBytes, ih]

theorem readBytes_written (m : List Host.Cell) (a n d j : Nat) (hj : j < n) (c : Byte)
    (h : cwGet? m (a + j) = some c) : (readBytes m a n d).1[j]? = some c := by
  induction n generalizing a d j with
  | zero => omega
  | succ n ih =>
    cases j with
    | zero => simp [readBytes, readByte_written (a := a) (by simpa using h)]
    | succ j =>
      simp only [readBytes, List.getElem?_cons_succ]
      exact ih (a + 1) _ j (by omega) (by rw [show a + 1 + j = a + (j + 1) by omega]; exact h)

theorem readBytes_draws_of_written (m : List Host.Cell) (a n d : Nat)
    (h : ∀ j < n, (cwGet? m (a + j)).isSome = true) : (readBytes m a n d).2 = d := by
  induction n generalizing a d with
  | zero => rfl
  | succ n ih =>
    obtain ⟨c, hc⟩ := Option.isSome_iff_exists.mp (h 0 (by omega))
    simp only [readBytes, readByte_written (a := a) (by simpa using hc)]
    exact ih (a + 1) d fun j hj => by
      have := h (j + 1) (by omega)
      rwa [show a + 1 + j = a + (j + 1) by omega]

theorem readBytes_draws_le (m : List Host.Cell) (a n d : Nat) : d ≤ (readBytes m a n d).2 := by
  induction n generalizing a d with
  | zero => exact Nat.le_refl d
  | succ n ih =>
    refine Nat.le_trans ?_ (ih (a + 1) _)
    unfold readByte
    split <;> omega

/-! ## The canonical form -/

theorem mem_cwSet {m : List Host.Cell} {a : Nat} {v : Byte} {c : Host.Cell} (h : c ∈ cwSet m a v) :
    c = (a, v) ∨ c ∈ m := by
  induction m with
  | nil => simpa [cwSet] using h
  | cons e m ih =>
    obtain ⟨b, u⟩ := e
    simp only [cwSet] at h
    split_ifs at h with h1 h2
    · simpa using h
    · simp only [List.mem_cons] at h ⊢
      rcases h with h | h
      · exact .inl h
      · exact .inr (.inr h)
    · simp only [List.mem_cons] at h ⊢
      rcases h with h | h
      · exact .inr (.inl h)
      · rcases ih h with h | h
        · exact .inl h
        · exact .inr (.inr h)

theorem pairwise_cwSet {m : List Host.Cell} (a : Nat) (v : Byte) (h : m.Pairwise fun c d => c.1 < d.1) :
    (cwSet m a v).Pairwise fun c d => c.1 < d.1 := by
  induction m with
  | nil => simp [cwSet]
  | cons e m ih =>
    obtain ⟨b, u⟩ := e
    rw [List.pairwise_cons] at h
    simp only [cwSet]
    split_ifs with h1 h2
    · refine List.pairwise_cons.mpr ⟨?_, List.pairwise_cons.mpr h⟩
      intro c hc
      rcases List.mem_cons.mp hc with rfl | hc
      · exact h1
      · exact Nat.lt_trans h1 (h.1 c hc)
    · subst h2; exact List.pairwise_cons.mpr h
    · refine List.pairwise_cons.mpr ⟨?_, ih h.2⟩
      intro c hc
      rcases mem_cwSet hc with rfl | hc
      · simp only; omega
      · exact h.1 c hc

/-- A write below CW_MAX keeps the canonical form. -/
theorem wf_cwSet {m : List Host.Cell} {a : Nat} (v : Byte) (h : Memory.wf m) (ha : a < Config.cwMax) :
    Memory.wf (cwSet m a v) :=
  ⟨pairwise_cwSet a v h.1, fun c hc => by
    rcases mem_cwSet hc with rfl | hc
    · exact ha
    · exact h.2 c hc⟩

/-- A store into a region in bounds keeps the canonical form. -/
theorem wf_writeBytes {m : List Host.Cell} {a : Nat} {v : List Byte} (h : Memory.wf m)
    (ha : a + v.length ≤ Config.cwMax) : Memory.wf (writeBytes m a v) := by
  induction v generalizing m a with
  | nil => exact h
  | cons u v ih =>
    simp only [List.length_cons] at ha
    exact ih (wf_cwSet u h (by omega)) (by omega)

/-- Forgetting a region keeps the canonical form. -/
theorem wf_cwForget {m : List Host.Cell} (off n : Nat) (h : Memory.wf m) : Memory.wf (cwForget m off n) :=
  ⟨h.1.sublist List.filter_sublist, fun c hc => h.2 c (List.mem_of_mem_filter hc)⟩

theorem wf_nil : Memory.wf [] := ⟨List.Pairwise.nil, by simp⟩

theorem wf_reset : Memory.wf State.reset.cw := wf_nil

/-- CWRAM keeps its canonical form through a soft reset. -/
theorem wf_cwAfterSoftReset {s : State} (h : Memory.wf s.cw) : Memory.wf (cwAfterSoftReset s) := by
  unfold cwAfterSoftReset
  split_ifs
  · cases decodeWord s.cmd with
    | ok i => exact wf_cwForget _ _ h
    | error e => exact h
  · exact h

end Sys2Proof.Machine
end

