-- ==== Sys2Proof/Laws/HostAccess.lean ====
section
/-! SUPPORT. Once for all host accesses: what a read, a write and a clock edge can do (20 R61, 70 R247). -/

namespace Sys2Proof.Machine

/-- What a write to each register gives, the hazard of 70 R247 taken apart. -/
theorem writeIdle_busy {s t : State} (h : s.busy = true) : writeIdle s t = overrun s := by simp [writeIdle, h]

theorem writeIdle_idle {s t : State} (h : s.busy = false) : writeIdle s t = t := by simp [writeIdle, h]

theorem readIdle_busy {s : State} (h : s.busy = true) (v : Word) :
    readIdle s v = (Config.freeWord s.draws, s.draws + 1) := by simp [readIdle, h]

theorem readIdle_idle {s : State} (h : s.busy = false) (v : Word) : readIdle s v = (v, s.draws) := by
  simp [readIdle, h]

/-- The CWRAM window reaches exactly the bytes of CWRAM (20 R51). -/
theorem regAt_cw_lt {a : BitVec 16} {i : Nat} (h : regAt a = .cw i) : i < Config.cwMax := by
  unfold regAt regOfOffset at h
  split at h
  all_goals first
    | (exact absurd h (by simp))
    | (split_ifs at h with hc
       · simp only [Reg.cw.injEq] at h
         simp only [Config.cwMax] at hc ⊢
         omega)

/-- What a clock edge can do: nothing, a hard reset, a write or a read; every other input is refused. -/
theorem portCycle_cases {p : PortInput} {s t : State} (h : portCycle p s = .next t) :
    t = hardReset s ∨ t = s ∨ t = hostWrite (regAt p.addr) p.wdata s ∨ t = hostRead (regAt p.addr) s := by
  unfold portCycle at h
  split_ifs at h <;> cases h <;> simp

/-- What the host's turn can do. -/
theorem hostStep_cases {s t : State} (h : hostStep s = .next t) :
    (s.bus = [] ∧ t = s)
    ∨ (∃ p l, s.bus = .cycle p :: l ∧ portCycle p { s with bus := l, wait := s.wait - 1 } = .next t)
    ∨ (∃ l, s.bus = .wait :: l ∧ t = hostRead .status { s with bus := l, wait := s.wait - 1 }) := by
  unfold hostStep at h
  split at h
  · next hb => cases h; exact .inl ⟨hb, rfl⟩
  · next p l hb => exact .inr (.inl ⟨p, l, hb, h⟩)
  · next l hb => cases h; exact .inr (.inr ⟨l, hb, rfl⟩)

/-- What a step can do: the engine's transition or the host's operation. -/
theorem step_cases (s : State) :
    (engineTurn s = true ∧ step s = engineStep s) ∨ (engineTurn s = false ∧ step s = hostStep s) := by
  unfold step
  cases engineTurn s <;> simp

/-! ## Accesses by offset -/

/-- From 0x070 on the map holds the CWRAM window and nothing else (10 R20). -/
theorem regOfOffset_high {n : Nat} (h : 0x070 ≤ n) :
    regOfOffset n = if 0x4000 ≤ n ∧ n < 0x4000 + 4 * Config.cwMax ∧ n % 4 = 0 then .cw ((n - 0x4000) / 4)
      else .reserved := by
  unfold regOfOffset
  split
  all_goals first
    | exact absurd h (by decide)
    | rfl

/-- The window's offsets (20 R52, R53). -/
theorem regOfOffset_window {i : Nat} (h : i < 4096) : regOfOffset (0x4000 + 4 * i) = .cw i := by
  rw [regOfOffset_high (by omega), if_pos (by simp only [Config.cwMax]; omega)]
  congr 1
  omega

/-- Past the mirrors, outside the window, nothing is mapped (10 R39). -/
theorem regOfOffset_reserved {n : Nat} (h : 0x070 ≤ n) (hw : n < 0x4000 ∨ 0x8000 ≤ n) :
    regOfOffset n = .reserved := by
  rw [regOfOffset_high h, if_neg (by simp only [Config.cwMax]; omega)]

theorem regAt_ofNat {n : Nat} (h : n < 0x10000) : regAt (BitVec.ofNat 16 n) = regOfOffset n := by
  rw [regAt, BitVec.toNat_ofNat, Nat.mod_eq_of_lt (by omega)]

/-- A read of a word-aligned offset. -/
theorem portCycle_readAt {off : Nat} (h4 : off % 4 = 0) (hl : off < 0x10000) (s : State) :
    portCycle (Safety.readAt off) s = .next (hostRead (regOfOffset off) s) := by
  have h : off % 65536 % 4 = 0 := by omega
  simp [portCycle, Safety.readAt, supportedAccess, regAt_ofNat hl, h]

/-- A write to a word-aligned offset. -/
theorem portCycle_writeAt {off : Nat} (h4 : off % 4 = 0) (hl : off < 0x10000) (v : Word) (s : State) :
    portCycle (Safety.writeAt off v) s = .next (hostWrite (regOfOffset off) v s) := by
  have h : off % 65536 % 4 = 0 := by omega
  simp [portCycle, Safety.writeAt, supportedAccess, regAt_ofNat hl, h]

end Sys2Proof.Machine
end

