-- ==== Sys2Proof/Laws/Matrix.lean ====
section
/-! SUPPORT. The matrix: a cell after a cell is set, and the operations keep the grid's shape. -/

namespace Sys2Proof.Machine

/-- A grid of N rows of N cells. -/
def Square (N : Nat) (g : List (List MxCell)) : Prop := g.length = N ∧ ∀ r ∈ g, r.length = N

theorem square_replicate (N : Nat) (c : MxCell) : Square N (List.replicate N (List.replicate N c)) :=
  ⟨by simp, fun r hr => by simp [List.eq_of_mem_replicate hr]⟩

/-- Setting a cell keeps the shape. -/
theorem square_setCell {N : Nat} {g : List (List MxCell)} (h : Square N g) (x y : Nat) (c : MxCell) :
    Square N (setCell g x y c) := by
  refine ⟨by simp [setCell, h.1], fun r hr => ?_⟩
  by_cases hy : y < g.length
  · rcases List.mem_or_eq_of_mem_set hr with hr | rfl
    · exact h.2 r hr
    · rw [List.length_set, List.getD_eq_getElem _ _ hy]
      exact h.2 _ (List.getElem_mem hy)
  · rw [setCell, List.set_eq_of_length_le (by omega)] at hr
    exact h.2 r hr

theorem cellAt_setCell_same {N : Nat} {g : List (List MxCell)} (h : Square N g) {x y : Nat} (hx : x < N) (hy : y < N)
    (c : MxCell) : cellAt (setCell g x y c) x y = c := by
  have hy' : y < g.length := h.1 ▸ hy
  have hr : g[y].length = N := h.2 _ (List.getElem_mem hy')
  simp [cellAt, setCell, hy', List.getD_eq_getElem?_getD, hr, hx]

theorem cellAt_setCell_other (g : List (List MxCell)) {x y u v : Nat} (c : MxCell) (hne : ¬(u = x ∧ v = y)) :
    cellAt (setCell g x y c) u v = cellAt g u v := by
  unfold cellAt setCell
  by_cases hv : v = y
  · subst hv
    have hu : x ≠ u := fun h => hne ⟨h.symm, rfl⟩
    by_cases hy : v < g.length
    · simp [List.getD_eq_getElem?_getD, hy, hu]
    · rw [List.set_eq_of_length_le (by omega)]
  · simp [List.getD_eq_getElem?_getD, List.getElem?_set_ne (Ne.symm hv)]

theorem square_placeStep {N : Nat} {mask : Option Nat} {st : List (List MxCell) × Bits} (h : Square N st.1)
    (p : Nat × Nat) : Square N (placeStep mask st p).1 := by
  unfold placeStep
  split_ifs
  · exact square_setCell h _ _ _
  · exact h

theorem square_foldl_placeStep {N : Nat} {mask : Option Nat} (l : List (Nat × Nat)) {st : List (List MxCell) × Bits}
    (h : Square N st.1) : Square N (l.foldl (placeStep mask) st).1 := by
  induction l generalizing st with
  | nil => exact h
  | cons p l ih => exact ih (square_placeStep h p)

/-- Placement keeps the shape. -/
theorem square_place {N M : Nat} {mask : Option Nat} {g : List (List MxCell)} (h : Square N g) (l : Bits) :
    Square N (place mask M g l) := square_foldl_placeStep _ h

/-! ## What placement can change -/

/-- One step of the traversal changes the cell it visits, if that is UNSET, and no other (45 R188). -/
theorem cellAt_placeStep {mask : Option Nat} {st : List (List MxCell) × Bits} {p : Nat × Nat} {x y : Nat}
    (h : cellAt st.1 x y ≠ .unset ∨ p ≠ (x, y)) : cellAt (placeStep mask st p).1 x y = cellAt st.1 x y := by
  unfold placeStep
  split_ifs with hu
  · refine cellAt_setCell_other _ _ ?_
    rintro ⟨rfl, rfl⟩
    rcases h with h | h
    · exact h hu
    · exact h rfl
  · rfl

/-- A cell that is set, or that the traversal does not visit, is as before. -/
theorem cellAt_foldl_placeStep {mask : Option Nat} (l : List (Nat × Nat)) {st : List (List MxCell) × Bits}
    {x y : Nat} (h : cellAt st.1 x y ≠ .unset ∨ (x, y) ∉ l) :
    cellAt (l.foldl (placeStep mask) st).1 x y = cellAt st.1 x y := by
  induction l generalizing st with
  | nil => rfl
  | cons p l ih =>
    have hp : cellAt (placeStep mask st p).1 x y = cellAt st.1 x y :=
      cellAt_placeStep (h.imp_right fun hn he => hn (he ▸ List.mem_cons_self))
    rw [List.foldl_cons, ih (hp ▸ h.imp_right fun hn hm => hn (List.mem_cons_of_mem _ hm)), hp]

theorem mem_columnPair {N c x y : Nat} {up : Bool} (h : (x, y) ∈ columnPair N c up) :
    (x = c ∨ x = c - 1) ∧ y < N := by
  obtain ⟨v, hv, hm⟩ := List.mem_flatMap.mp h
  have hvN : v < N := by cases up <;> simpa using hv
  simp only [List.mem_cons, Prod.mk.injEq, List.not_mem_nil, or_false] at hm
  omega

/-- The traversal from an even column, or from one left of column 6, stays inside and skips column 6 (45 R187). -/
theorem mem_traverseFrom {N x y : Nat} (fuel c : Nat) (up : Bool) (hc : c < N) (hp : c % 2 = 0 ∨ c ≤ 5)
    (h : (x, y) ∈ traverseFrom N fuel c up) : x ≠ 6 ∧ x < N ∧ y < N := by
  induction fuel generalizing c up with
  | zero => simp [traverseFrom] at h
  | succ fuel ih =>
    unfold traverseFrom at h
    split_ifs at h with h0 h6
    · simp at h
    · rcases List.mem_append.mp h with h | h
      · have := mem_columnPair h
        omega
      · exact ih _ _ (by omega) (by omega) h
    · rcases List.mem_append.mp h with h | h
      · have := mem_columnPair h
        omega
      · exact ih _ _ (by omega) (by omega) h

/-- The traversal of a matrix visits no cell of column 6 and none outside (45 R187). -/
theorem mem_traverse {v x y : Nat} (h : (x, y) ∈ traverse (dim v)) : x ≠ 6 ∧ x < dim v ∧ y < dim v := by
  have hd : 17 ≤ dim v ∧ (dim v - 1) % 2 = 0 := by unfold dim; omega
  exact mem_traverseFrom _ _ _ (by omega) (.inl hd.2) h

/-- What MX_PLACE cannot change (45 R188, R198): a cell that is set, in column 6 or outside. -/
theorem cellAt_place_other {v x y : Nat} {mask : Option Nat} {g : List (List MxCell)} (l : Bits)
    (h : ¬(cellAt g x y = .unset ∧ x ≠ 6 ∧ x < dim v ∧ y < dim v)) :
    cellAt (place mask (dim v) g l) x y = cellAt g x y := by
  refine cellAt_foldl_placeStep _ ?_
  by_cases hu : cellAt g x y = .unset
  · exact .inr fun hm => h ⟨hu, mem_traverse hm⟩
  · exact .inl hu

@[simp] theorem mxDim_zero {s : State} (h : s.mxVer = 0) : mxDim s = 0 := by simp [mxDim, h]

theorem mxDim_of_ne_zero {s : State} (h : s.mxVer ≠ 0) : mxDim s = 17 + 4 * s.mxVer := by simp [mxDim, h, dim]

end Sys2Proof.Machine
end

