-- ==== Sys2Proof/Laws/PerInstr.lean ====
section
/-! SUPPORT. Per command: its word is a legal command word (30 R71), it decodes to the command, and its three fields are
the opcode, the S bit and zeros (30 R70). -/

namespace Sys2Proof.Laws.Encoding

/-- What is said of each command as a word. -/
def Statement (i : Instr) : Prop :=
  decodeWord (encode i) = .ok i ∧ CmdWord.wellFormed (encode i) = true
    ∧ CmdWord.op (encode i) = opcode i ∧ (encode i).getLsbD 8 = selOf i

theorem nop : Statement .nop := by unfold Statement; decide
theorem bsClear (b : Buf) : Statement (.bsClear b) := by cases b <;> unfold Statement <;> decide
theorem bsAppendBit (b : Buf) : Statement (.bsAppendBit b) := by cases b <;> unfold Statement <;> decide
theorem bsAppendBits (b : Buf) : Statement (.bsAppendBits b) := by cases b <;> unfold Statement <;> decide
theorem bsAppendBs (b : Buf) : Statement (.bsAppendBs b) := by cases b <;> unfold Statement <;> decide
theorem bsXor (b : Buf) : Statement (.bsXor b) := by cases b <;> unfold Statement <;> decide
theorem bsExtract (b : Buf) : Statement (.bsExtract b) := by cases b <;> unfold Statement <;> decide
theorem bsGetBit (b : Buf) : Statement (.bsGetBit b) := by cases b <;> unfold Statement <;> decide
theorem bsAppendCw (b : Buf) : Statement (.bsAppendCw b) := by cases b <;> unfold Statement <;> decide
theorem gfAdd : Statement .gfAdd := by unfold Statement; decide
theorem gfMul : Statement .gfMul := by unfold Statement; decide
theorem gfInv : Statement .gfInv := by unfold Statement; decide
theorem gfExp : Statement .gfExp := by unfold Statement; decide
theorem gfLog : Statement .gfLog := by unfold Statement; decide
theorem rsGen : Statement .rsGen := by unfold Statement; decide
theorem polyMul : Statement .polyMul := by unfold Statement; decide
theorem polyMod : Statement .polyMod := by unfold Statement; decide
theorem rsEnc : Statement .rsEnc := by unfold Statement; decide
theorem bchCode : Statement .bchCode := by unfold Statement; decide
theorem fmtInfo : Statement .fmtInfo := by unfold Statement; decide
theorem verInfo : Statement .verInfo := by unfold Statement; decide
theorem mxClear : Statement .mxClear := by unfold Statement; decide
theorem mxSet : Statement .mxSet := by unfold Statement; decide
theorem mxGet : Statement .mxGet := by unfold Statement; decide
theorem mxPlace (b : Buf) : Statement (.mxPlace b) := by cases b <;> unfold Statement <;> decide
theorem mxScore : Statement .mxScore := by unfold Statement; decide
theorem mxMaskbit : Statement .mxMaskbit := by unfold Statement; decide

end Sys2Proof.Laws.Encoding
end

