-- ==== Sys2Proof/Laws/Poly.lean ====
section
/-! SUPPORT. The lengths of the polynomial results (43 R141, R143, R145, R147). -/

namespace Sys2Proof.Machine

@[simp] theorem polymul_length (A B : List Byte) : (polymul A B).length = A.length + B.length - 1 := by
  simp [polymul]

@[simp] theorem polymod_length (A B : List Byte) : (polymod A B).length = B.length - 1 := by
  simp [polymod]

theorem generator_zero : generator 0 = [1#8] := rfl

theorem generator_succ (e : Nat) : generator (e + 1) = polymul (generator e) [1#8, gfexp e] := by
  simp [generator, List.range_succ]

@[simp] theorem generator_length (e : Nat) : (generator e).length = e + 1 := by
  induction e with
  | zero => rfl
  | succ e ih => simp [generator_succ, ih]

@[simp] theorem rsec_length (D : List Byte) (e : Nat) : (rsec D e).length = e := by
  simp [rsec]

@[simp] theorem addAt_length (i : Nat) (r v : List Byte) : (addAt i r v).length = r.length := by
  induction i, r, v using addAt.induct <;> simp_all [addAt]

@[simp] theorem divStep_length (B : List Byte) (li : Byte) (r : List Byte) (i : Nat) :
    (divStep B li r i).length = r.length := by
  unfold divStep
  split_ifs <;> simp

end Sys2Proof.Machine
end

