-- ==== Sys2Proof/Tests/Slice0.lean ====
section
/-! SUPPORT. Tests: words and results written out from the spec (each comment names where the expected value stands), and
for every statement of Obligations with hypotheses a witness that they can be met, clause by clause, at boundary values. -/

namespace Sys2Proof.Tests

open Sys2Proof.Machine Sys2Proof.Safety

/-! ## Helpers -/

/-- The ARG registers from a list, 0 where it ends. -/
def argsOf (l : List Nat) : ArgRegs :=
  { arg0 := BitVec.ofNat 32 (l.getD 0 0), arg1 := BitVec.ofNat 32 (l.getD 1 0), arg2 := BitVec.ofNat 32 (l.getD 2 0)
    arg3 := BitVec.ofNat 32 (l.getD 3 0), arg4 := BitVec.ofNat 32 (l.getD 4 0), arg5 := BitVec.ofNat 32 (l.getD 5 0) }

/-- The reset state with these operands and a command in flight. -/
def start (l : List Nat) : State := { State.reset with args := argsOf l, busy := true }

/-- `start` with these bytes in CWRAM from 0 on. -/
def startCw (l : List Nat) (v : List Byte) : State := { start l with cw := writeBytes [] 0 v }

/-- `start` with these buffers. -/
def startBs (l : List Nat) (a b : Bits) : State := { start l with bsA := a, bsB := b }

/-- `start` with a version 1 matrix, every cell of this value. -/
def startMx (l : List Nat) (c : MxCell) : State :=
  { start l with mxVer := 1, grid := List.replicate 21 (List.replicate 21 c) }

/-- The next state, if there is one. -/
def after (r : Result) : Option State :=
  match r with
  | .next t => some t
  | .fault _ => none
  | .refused _ => none

/-- ERRCODE after a step. -/
def codeOf (r : Result) : Option (BitVec 8) := (after r).map State.errcode

/-- RES0 to RES4 after a step. -/
def resOf (r : Result) : Option (List Word) :=
  (after r).map fun t => [t.res.res0, t.res.res1, t.res.res2, t.res.res3, t.res.res4]

/-- The CWRAM bytes from 0 on after a step. -/
def cwOf (n : Nat) (r : Result) : Option (List (Option Byte)) :=
  (after r).map fun t => (List.range n).map (cwGet? t.cw)

/-! ## Decoding: one word a constructor, from the opcode map of 30 R74 -/

theorem test_decode_nop : decodeWord 0x00000000#32 = .ok .nop := by decide
theorem test_decode_bsClear : decodeWord 0x00000110#32 = .ok (.bsClear .B) := by decide
theorem test_decode_bsAppendBit : decodeWord 0x00000011#32 = .ok (.bsAppendBit .A) := by decide
theorem test_decode_bsAppendBits : decodeWord 0x00000112#32 = .ok (.bsAppendBits .B) := by decide
theorem test_decode_bsAppendBs : decodeWord 0x00000013#32 = .ok (.bsAppendBs .A) := by decide
theorem test_decode_bsXor : decodeWord 0x00000114#32 = .ok (.bsXor .B) := by decide
theorem test_decode_bsExtract : decodeWord 0x00000015#32 = .ok (.bsExtract .A) := by decide
theorem test_decode_bsGetBit : decodeWord 0x00000116#32 = .ok (.bsGetBit .B) := by decide
theorem test_decode_bsAppendCw : decodeWord 0x00000017#32 = .ok (.bsAppendCw .A) := by decide
theorem test_decode_gfAdd : decodeWord 0x00000020#32 = .ok .gfAdd := by decide
theorem test_decode_gfMul : decodeWord 0x00000021#32 = .ok .gfMul := by decide
theorem test_decode_gfInv : decodeWord 0x00000022#32 = .ok .gfInv := by decide
theorem test_decode_gfExp : decodeWord 0x00000023#32 = .ok .gfExp := by decide
theorem test_decode_gfLog : decodeWord 0x00000024#32 = .ok .gfLog := by decide
theorem test_decode_rsGen : decodeWord 0x00000030#32 = .ok .rsGen := by decide
theorem test_decode_polyMul : decodeWord 0x00000031#32 = .ok .polyMul := by decide
theorem test_decode_polyMod : decodeWord 0x00000032#32 = .ok .polyMod := by decide
theorem test_decode_rsEnc : decodeWord 0x00000033#32 = .ok .rsEnc := by decide
theorem test_decode_bchCode : decodeWord 0x00000040#32 = .ok .bchCode := by decide
theorem test_decode_fmtInfo : decodeWord 0x00000041#32 = .ok .fmtInfo := by decide
theorem test_decode_verInfo : decodeWord 0x00000042#32 = .ok .verInfo := by decide
theorem test_decode_mxClear : decodeWord 0x00000050#32 = .ok .mxClear := by decide
theorem test_decode_mxSet : decodeWord 0x00000051#32 = .ok .mxSet := by decide
theorem test_decode_mxGet : decodeWord 0x00000052#32 = .ok .mxGet := by decide
theorem test_decode_mxPlace : decodeWord 0x00000153#32 = .ok (.mxPlace .B) := by decide
theorem test_decode_mxScore : decodeWord 0x00000054#32 = .ok .mxScore := by decide
theorem test_decode_mxMaskbit : decodeWord 0x00000055#32 = .ok .mxMaskbit := by decide

/-- 30 R75: the ends of every reserved range of OP are refused by name. -/
theorem test_decode_reserved_ops :
    ∀ op ∈ [0x01, 0x0F, 0x18, 0x1F, 0x25, 0x2F, 0x34, 0x3F, 0x43, 0x4F, 0x56, 0xFF],
      decodeWord (BitVec.ofNat 32 op) = .error .reservedOp := by decide

/-! ## WellFormed: a word that each of the three checks of 30 R71 refuses -/

theorem test_wellFormed_reservedBits : CmdWord.reservedZero 0x00000210#32 = false := by decide
theorem test_wellFormed_opKnown : CmdWord.opKnown 0x00000025#32 = false := by decide
theorem test_wellFormed_selAllowed : CmdWord.selAllowed 0x00000154#32 = false := by decide
theorem test_wellFormed_accepts : CmdWord.wellFormed 0x00000153#32 = true := by decide

/-! ## The commands: one step each, expected results from the spec's examples -/

/-- 40 R90: STATUS = 0x00000002 and irq = 1 with IE = 1. -/
theorem test_nop : (after (exec .nop { start [] with ie := true })).map (fun t => (statusWord t, irq t))
    = some (0x00000002#32, true) := by decide

/-- 41 R101: clearing BS[B] leaves BS[A]. -/
theorem test_bsClear : (after (exec (.bsClear .B) (startBs [] [true, false] [true]))).map (fun t => (t.bsA, t.bsB))
    = some ([true, false], []) := by decide

/-- 41 R102: [1,0] and 1 give [1,0,1]; 2 is RANGE. -/
theorem test_bsAppendBit : (after (exec (.bsAppendBit .A) (startBs [1] [true, false] []))).map State.bsA
    = some [true, false, true] := by decide
theorem test_bsAppendBit_range : codeOf (exec (.bsAppendBit .A) (start [2])) = some 0x02#8 := by decide

/-- 41 R103: after 0010, six in nine bits is 000000110. -/
theorem test_bsAppendBits :
    (after (exec (.bsAppendBits .A) (startBs [6, 9] [false, false, true, false] []))).map State.bsA
      = some [false, false, true, false, false, false, false, false, false, false, true, true, false] := by decide
/-- 41 R103: n = 32 appends v[31] first. -/
theorem test_bsAppendBits_full :
    (after (exec (.bsAppendBits .B) (start [0x80000000, 32]))).map (fun t => (t.bsB.headD false, t.bsB.length))
      = some (true, 32) := by decide

/-- 41 R104: 11 and 010 give 11010. -/
theorem test_bsAppendBs :
    (after (exec (.bsAppendBs .A) (startBs [] [true, true] [false, true, false]))).map (fun t => (t.bsA, t.bsB))
      = some ([true, true, false, true, false], [false, true, false]) := by decide

/-- 41 R105: 101 and 110 give 011; unequal lengths fail. -/
theorem test_bsXor :
    (after (exec (.bsXor .A) (startBs [] [true, false, true] [true, true, false]))).map State.bsA
      = some [false, true, true] := by decide
theorem test_bsXor_len : codeOf (exec (.bsXor .A) (startBs [] [true] [])) = some 0x04#8 := by decide

/-- The 13 bits of 41 R106's example. -/
def thirteen : Bits :=
  [false, false, true, false, false, false, false, false, false, false, true, true, false]

/-- 41 R106: k = 0 gives 0x20, 0x30; k = 1 gives 0x30, 0x00, 0x00. -/
theorem test_bsExtract : cwOf 3 (exec (.bsExtract .A) (startBs [0, 2, 0] thirteen []))
    = some [some 0x20#8, some 0x30#8, none] := by decide
theorem test_bsExtract_past_end : cwOf 3 (exec (.bsExtract .A) (startBs [1, 3, 0] thirteen []))
    = some [some 0x30#8, some 0x00#8, some 0x00#8] := by decide

/-- 41 R107: bit 2 of 0010 is 1; the length is no index. -/
theorem test_bsGetBit : resOf (exec (.bsGetBit .A) (startBs [2] thirteen [])) = some [1, 0, 0, 0, 0] := by decide
theorem test_bsGetBit_index : codeOf (exec (.bsGetBit .A) (startBs [13] thirteen [])) = some 0x05#8 := by decide

/-- 41 R108: 0x20, 0x30 give 00100000 00110000. -/
theorem test_bsAppendCw :
    (after (exec (.bsAppendCw .B) (startCw [0, 2] [0x20#8, 0x30#8]))).map State.bsB
      = some [false, false, true, false, false, false, false, false,
              false, false, true, true, false, false, false, false] := by decide

/-- 42 R124 to R128, the examples and corner cases. -/
theorem test_gfAdd : resOf (exec .gfAdd (start [0x53, 0xCA])) = some [0x99, 0, 0, 0, 0] := by decide
theorem test_gfMul : resOf (exec .gfMul (start [0x53, 0xCA])) = some [0x8F, 0, 0, 0, 0] := by decide
theorem test_gfMul_reduces : resOf (exec .gfMul (start [2, 0x80])) = some [0x1D, 0, 0, 0, 0] := by decide
theorem test_gfInv : resOf (exec .gfInv (start [0x53])) = some [0x8C, 0, 0, 0, 0] := by decide
theorem test_gfInv_zero : codeOf (exec .gfInv (start [0])) = some 0x06#8 := by decide
theorem test_gfExp : resOf (exec .gfExp (start [25])) = some [0x03, 0, 0, 0, 0] := by decide
theorem test_gfExp_last : resOf (exec .gfExp (start [255])) = some [0x01, 0, 0, 0, 0] := by decide
theorem test_gfLog : resOf (exec .gfLog (start [0x8E])) = some [254, 0, 0, 0, 0] := by decide
theorem test_gfLog_zero : codeOf (exec .gfLog (start [0])) = some 0x07#8 := by decide

/-- 43 R142: g_2 is 01 03 02. -/
theorem test_rsGen : cwOf 3 (exec .rsGen (start [2, 0])) = some [some 0x01#8, some 0x03#8, some 0x02#8] := by decide

/-- 43 R144: (x + 2)(x + 3) is 01 01 06. -/
theorem test_polyMul :
    cwOf 7 (exec .polyMul (startCw [0, 2, 2, 2, 4] [0x01#8, 0x02#8, 0x01#8, 0x03#8]))
      = some [some 0x01#8, some 0x02#8, some 0x01#8, some 0x03#8, some 0x01#8, some 0x01#8, some 0x06#8] := by
  decide +kernel

/-- 43 R146: x² modulo x² + 3x + 2 is 03 02; a divisor of zeros is DIV_ZERO. -/
theorem test_polyMod :
    cwOf 8 (exec .polyMod (startCw [0, 3, 3, 3, 6] [0x01#8, 0x00#8, 0x00#8, 0x01#8, 0x03#8, 0x02#8]))
      = some [some 0x01#8, some 0x00#8, some 0x00#8, some 0x01#8, some 0x03#8, some 0x02#8, some 0x03#8, some 0x02#8] := by
  decide +kernel
theorem test_polyMod_zero : codeOf (exec .polyMod (startCw [0, 1, 1, 1, 2] [0x01#8, 0x00#8])) = some 0x0A#8 := by
  decide +kernel

/-- 95 V-SRC-1: the source's reference vector. -/
theorem test_rsEnc :
    (cwOf 26 (exec .rsEnc (startCw [0, 16, 10, 16]
        [0x10#8, 0x20#8, 0x0C#8, 0x56#8, 0x61#8, 0x80#8, 0xEC#8, 0x11#8,
         0xEC#8, 0x11#8, 0xEC#8, 0x11#8, 0xEC#8, 0x11#8, 0xEC#8, 0x11#8]))).map (List.drop 16)
      = some [some 0xA5#8, some 0x24#8, some 0xD4#8, some 0xC1#8, some 0xED#8,
              some 0x36#8, some 0xC7#8, some 0x87#8, some 0x2C#8, some 0x55#8] := by
  decide +kernel

/-- 44 R162, R164, R168: the examples. -/
theorem test_bchCode : resOf (exec .bchCode (start [8, 0x537])) = some [0x3D6, 0x23D6, 0, 0, 0] := by decide +kernel
theorem test_bchCode_zeroPoly : codeOf (exec .bchCode (start [8, 0])) = some 0x0B#8 := by decide +kernel
theorem test_fmtInfo : resOf (exec .fmtInfo (start [1, 0])) = some [0x77C4, 0x23D6, 0x3D6, 0, 0] := by decide +kernel
theorem test_fmtInfo_zero : resOf (exec .fmtInfo (start [0, 0])) = some [0x5412, 0, 0, 0, 0] := by decide +kernel
theorem test_verInfo : resOf (exec .verInfo (start [7])) = some [0x07C94, 0xC94, 0, 0, 0] := by decide +kernel

/-- 45 R182: version 40 has 177 rows; version 41 is RANGE. -/
theorem test_mxClear : (after (exec .mxClear (start [40]))).map (fun t => (t.mxVer, mxDim t, t.grid.length))
    = some (40, 177, 177) := by decide +kernel
theorem test_mxClear_range : codeOf (exec .mxClear (start [41])) = some 0x02#8 := by decide

/-- 45 R183: cell (6, 0) is column 6 of row 0; (21, 0) is MX_COORD. -/
theorem test_mxSet :
    (after (exec .mxSet (startMx [6, 0, 1] .unset))).map (fun t => (cellAt t.grid 6 0, cellAt t.grid 0 6))
      = some (.dark, .unset) := by decide +kernel
theorem test_mxSet_coord : codeOf (exec .mxSet (startMx [21, 0, 1] .unset)) = some 0x0F#8 := by decide

/-- 45 R184: an UNSET cell reads 3. -/
theorem test_mxGet : resOf (exec .mxGet (startMx [5, 0] .unset)) = some [3, 0, 0, 0, 0] := by decide

/-- 45 R198: an empty buffer and mask -1 on a new version 1 matrix; column 6 stays UNSET. -/
theorem test_mxPlace : resOf (exec (.mxPlace .A) (startMx [0xFFFFFFFF] .unset)) = some [0, 420, 420, 0, 0] := by
  decide +kernel
/-- 45 R191: the first three cells of the example under mask 0 are light, light, dark. -/
theorem test_mxPlace_mask :
    let r := ((traverse 21).take 3).foldl (placeStep (some 0)) ((startMx [] .unset).grid, [true, false, true, true])
    [cellAt r.1 20 20, cellAt r.1 19 20, cellAt r.1 20 19, cellAt r.1 19 19] = [.light, .light, .dark, .unset]
      ∧ r.2 = [true] := by decide +kernel

/-- 45 R196: every cell light; one UNSET cell fails. -/
theorem test_mxScore : resOf (exec .mxScore (startMx [] .light)) = some [2098, 798, 1200, 0, 100] := by decide +kernel
theorem test_mxScore_unset : codeOf (exec .mxScore (startMx [] .unset)) = some 0x11#8 := by decide +kernel

/-- 45 R186: the value at (5, 3) under mask 4; x = 177 is RANGE. -/
theorem test_mxMaskbit : resOf (exec .mxMaskbit (start [4, 5, 3])) = some [1, 0, 0, 0, 0] := by decide
theorem test_mxMaskbit_range : codeOf (exec .mxMaskbit (start [0, 177, 0])) = some 0x02#8 := by decide

/-! ## Steps and the host's side -/

/-- `withFetchWord` places a word so that the very next step runs it: MX_MASKBIT on operands of zeros. -/
theorem test_withFetchWord : resOf (step (State.reset.withFetchWord 32 0x55)) = some [1, 0, 0, 0, 0] := by decide

/-- 60 R213, R214: an illegal word ends in ILLEGAL. -/
theorem test_illegal : codeOf (step (State.reset.withFetchWord 32 0x100)) = some 0x01#8 := by decide

/-- 70 R241: nothing to do after reset (60 R227). -/
theorem test_reset_idles : after (step State.reset) = some State.reset := by decide

/-- 10 R21: the ID register. -/
theorem test_read_id : (after (step { State.reset with bus := [rd 0x000] })).map State.rdata = some 0x51524345#32 := by
  decide

/-- 20 R54: a byte access is refused. -/
theorem test_byte_access_refused :
    after (step { State.reset with bus := [.cycle { re := true, size := 0b00#2 }] }) = none := by decide

/-- 70 R247: an ARG write while busy is dropped and sets OVR. -/
theorem test_busy_write_overruns :
    (after (portCycle (writeAt 0x020 7#32) (start []))).map (fun t => (t.args.arg0, t.ovr)) = some (0#32, true) := by
  decide

/-- 20 R53: a window write keeps the low byte. -/
theorem test_window_write :
    (after (portCycle (writeAt 0x7FFC 0x1A5#32) State.reset)).map State.cw = some [(4095, 0xA5#8)] := by decide +kernel

/-! ## Witnesses: the hypotheses of each statement can be met, clause by clause -/

theorem witness_IllegalWordsEndInIllegal :
    (∀ w ∈ [0x200, 0xFFFFFE00], w / 512 ≠ 0)
      ∧ (∀ w ∈ [0x01, 0x0F], 0x01 ≤ w % 256 ∧ w % 256 ≤ 0x0F)
      ∧ (∀ w ∈ [0x18, 0x1F], 0x18 ≤ w % 256 ∧ w % 256 ≤ 0x1F)
      ∧ (∀ w ∈ [0x25, 0x2F], 0x25 ≤ w % 256 ∧ w % 256 ≤ 0x2F)
      ∧ (∀ w ∈ [0x34, 0x3F], 0x34 ≤ w % 256 ∧ w % 256 ≤ 0x3F)
      ∧ (∀ w ∈ [0x43, 0x4F], 0x43 ≤ w % 256 ∧ w % 256 ≤ 0x4F)
      ∧ (∀ w ∈ [0x56, 0xFF], 0x56 ≤ w % 256 ∧ w % 256 ≤ 0xFF)
      ∧ (0x00000154#32).getLsbD 8 = true
      ∧ (∀ w ∈ [0x00, 0x10, 0x17, 0x20, 0x33, 0x42, 0x55, 0x110, 0x117, 0x153],
          ¬(w / 512 ≠ 0 ∨ (0x01 ≤ w % 256 ∧ w % 256 ≤ 0x0F) ∨ (0x18 ≤ w % 256 ∧ w % 256 ≤ 0x1F)
            ∨ (0x25 ≤ w % 256 ∧ w % 256 ≤ 0x2F) ∨ (0x34 ≤ w % 256 ∧ w % 256 ≤ 0x3F)
            ∨ (0x43 ≤ w % 256 ∧ w % 256 ≤ 0x4F) ∨ (0x56 ≤ w % 256 ∧ w % 256 ≤ 0xFF)
            ∨ ((BitVec.ofNat 32 w).getLsbD 8 = true ∧ ¬(0x10 ≤ w % 256 ∧ w % 256 ≤ 0x17) ∧ w % 256 ≠ 0x53))) := by
  decide

/-- A command in flight with the host waiting in each of the three ways. -/
theorem witness_StepRunsTheDecodedCommand :
    (∀ l ∈ [([] : List HostOp), [.wait], [.cycle {}]],
        ({ start [] with bus := l } : State).busy = true ∧ ({ start [] with bus := l } : State).wait = 0
          ∧ decodeWord ({ start [] with bus := l } : State).cmd = .ok .nop)
      ∧ (({ start [] with cmd := 0x100#32 } : State).busy = true
        ∧ decodeWord ({ start [] with cmd := 0x100#32 } : State).cmd = .error .selOnPlainOp)
      ∧ decodeTableWord 32 0x153 = some (.mxPlace .B) ∧ decodeTableWord 32 0x18 = none := by decide

theorem witness_StepIsTheHostsOtherwise :
    (∀ l ∈ [([] : List HostOp), [.wait], [.cycle {}]], ({ State.reset with bus := l } : State).busy = false)
      ∧ ({ start [] with wait := 1, bus := [.cycle {}] } : State).wait ≠ 0 := by decide

theorem witness_NopCompletes : (start []).ovr = false := by decide

/-- A buffer of n bits in BS[A]. -/
def long (l : List Nat) (n : Nat) : State := startBs l (List.replicate n false) []

theorem long_length (l : List Nat) (n : Nat) : (bs (long l n) .A).length = n := by simp [long, startBs, bs]

theorem long_other_length (l : List Nat) (n : Nat) : (bs (long l n) .B).length = 0 := rfl

theorem full_length (n : Nat) (b : Bits) : (bs (startBs [] (List.replicate n false) b) .A).length = n := by
  simp [startBs, bs]

theorem witness_BsClearAndAppendBit :
    (arg (long [0] 32767) 0 = 0 ∧ (bs (long [0] 32767) .A).length + 1 ≤ 32768)
      ∧ (arg (long [1] 32767) 0 = 1 ∧ (bs (long [1] 32767) .A).length + 1 ≤ 32768)
      ∧ arg (start [2]) 0 > 1
      ∧ (arg (long [1] 32768) 0 ≤ 1 ∧ (bs (long [1] 32768) .A).length + 1 > 32768) := by
  simp only [long_length]
  exact ⟨⟨rfl, by decide⟩, ⟨rfl, by decide⟩, by decide, by decide, by decide⟩

theorem witness_BsAppendBitsMsbFirst :
    (arg (long [1, 32] 32736) 1 ≤ 32 ∧ (bs (long [1, 32] 32736) .A).length + arg (long [1, 32] 32736) 1 ≤ 32768)
      ∧ arg (start [1, 33]) 1 > 32
      ∧ (arg (long [1, 32] 32737) 1 ≤ 32
        ∧ (bs (long [1, 32] 32737) .A).length + arg (long [1, 32] 32737) 1 > 32768) := by
  simp only [long_length]
  exact ⟨⟨by decide, by decide⟩, by decide, by decide, by decide⟩

theorem witness_BsAppendBsAndXor :
    (bs (long [] 32768) .A).length + (bs (long [] 32768) .B).length ≤ 32768
      ∧ (bs (startBs [] (List.replicate 32768 false) [true]) .A).length
          + (bs (startBs [] (List.replicate 32768 false) [true]) .B).length > 32768
      ∧ (bs (startBs [] [true] [false]) .A).length = (bs (startBs [] [true] [false]) .B).length
      ∧ (bs (long [] 1) .A).length ≠ (bs (long [] 1) .B).length := by
  refine ⟨?_, ?_, rfl, by decide⟩
  · rw [long_length, long_other_length]
  · rw [full_length]
    exact Nat.lt_succ_self _

theorem witness_BsExtractStoresBytes :
    InCw (arg (start [0, 0, 4096]) 2) (arg (start [0, 0, 4096]) 1)
      ∧ InCw (arg (start [9, 4096, 0]) 2) (arg (start [9, 4096, 0]) 1)
      ∧ ¬InCw (arg (start [0, 1, 4096]) 2) (arg (start [0, 1, 4096]) 1) := by
  simp only [InCw]; decide

theorem witness_BsGetBitReads :
    (bs (long [0] 1) .A)[arg (long [0] 1) 0]? = some false ∧ arg (long [1] 1) 0 ≥ (bs (long [1] 1) .A).length := by
  decide

theorem witness_BsAppendCwAppendsBytes :
    (InCw (arg (startCw [0, 1] [7#8]) 0) (arg (startCw [0, 1] [7#8]) 1)
        ∧ (bs (startCw [0, 1] [7#8]) .A).length + 8 * arg (startCw [0, 1] [7#8]) 1 ≤ 32768
        ∧ Written (startCw [0, 1] [7#8]) (arg (startCw [0, 1] [7#8]) 0) (arg (startCw [0, 1] [7#8]) 1))
      ∧ (InCw (arg (start [0, 4096]) 0) (arg (start [0, 4096]) 1)
        ∧ (bs (start [0, 4096]) .A).length + 8 * arg (start [0, 4096]) 1 ≤ 32768)
      ∧ ¬InCw (arg (start [4096, 1]) 0) (arg (start [4096, 1]) 1)
      ∧ (InCw (arg (long [0, 4096] 1) 0) (arg (long [0, 4096] 1) 1)
        ∧ (bs (long [0, 4096] 1) .A).length + 8 * arg (long [0, 4096] 1) 1 > 32768) := by
  simp only [InCw, Written]; decide

theorem witness_GfAddAndMul :
    (arg (start [255, 255]) 0 ≤ 255 ∧ arg (start [255, 255]) 1 ≤ 255)
      ∧ arg (start [256, 0]) 0 > 255 ∧ arg (start [0, 256]) 1 > 255 := by decide

theorem witness_GfInvExpAndLog :
    (∀ a ∈ [1, 255], 1 ≤ arg (start [a]) 0 ∧ arg (start [a]) 0 ≤ 255)
      ∧ arg (start [256]) 0 > 255 ∧ arg (start [0]) 0 = 0 := by decide

theorem witness_RsGenStoresGenerator :
    (arg (start [255, 3840]) 0 ≤ 255 ∧ InCw (arg (start [255, 3840]) 1) (arg (start [255, 3840]) 0 + 1))
      ∧ arg (start [256, 0]) 0 > 255
      ∧ (arg (start [0, 4096]) 0 ≤ 255 ∧ ¬InCw (arg (start [0, 4096]) 1) (arg (start [0, 4096]) 0 + 1)) := by
  simp only [InCw]; decide

/-- The region conditions of POLY_MUL, whose result has n + m - 1 bytes, and of POLY_MOD, whose result has m - 1. -/
def regions (s : State) (r : Nat) : Prop := InCw (arg s 0) (arg s 1) ∧ InCw (arg s 2) (arg s 3) ∧ InCw (arg s 4) r
def clash (s : State) (r : Nat) : Prop :=
  Overlaps (arg s 4) r (arg s 0) (arg s 1) ∨ Overlaps (arg s 4) r (arg s 2) (arg s 3)

theorem witness_PolyMulStoresProduct :
    let ok := startCw [0, 1, 1, 1, 4095] [2#8, 3#8]
    let high := start [4095, 1, 4095, 1, 4096]
    let both := start [0, 2, 2, 2, 3]
    (arg ok 1 ≠ 0 ∧ arg ok 3 ≠ 0 ∧ regions ok (arg ok 1 + arg ok 3 - 1) ∧ ¬clash ok (arg ok 1 + arg ok 3 - 1)
        ∧ Written ok (arg ok 0) (arg ok 1) ∧ Written ok (arg ok 2) (arg ok 3))
      ∧ arg (start [0, 0, 0, 1]) 1 = 0 ∧ arg (start [0, 1, 0, 0]) 3 = 0
      ∧ (arg high 1 ≠ 0 ∧ arg high 3 ≠ 0 ∧ ¬regions high (arg high 1 + arg high 3 - 1))
      ∧ (arg both 1 ≠ 0 ∧ arg both 3 ≠ 0 ∧ regions both (arg both 1 + arg both 3 - 1)
        ∧ clash both (arg both 1 + arg both 3 - 1)) := by
  simp only [regions, clash, InCw, Overlaps, Written]; decide

theorem witness_PolyModStoresRemainder :
    let ok := startCw [0, 1, 1, 2, 4095] [2#8, 0#8, 3#8]
    let zero := startCw [0, 1, 1, 1, 4096] [2#8, 0#8]
    let high := start [4095, 1, 4095, 1, 4097]
    let both := start [0, 2, 2, 2, 3]
    (arg ok 1 ≠ 0 ∧ arg ok 3 ≠ 0 ∧ regions ok (arg ok 3 - 1) ∧ ¬clash ok (arg ok 3 - 1)
        ∧ (∃ j < arg ok 3, cwGet? ok.cw (arg ok 2 + j) = some 3#8)
        ∧ Written ok (arg ok 0) (arg ok 1) ∧ Written ok (arg ok 2) (arg ok 3))
      ∧ (arg zero 1 ≠ 0 ∧ arg zero 3 ≠ 0 ∧ regions zero (arg zero 3 - 1) ∧ ¬clash zero (arg zero 3 - 1)
        ∧ ∀ j < arg zero 3, cwGet? zero.cw (arg zero 2 + j) = some 0#8)
      ∧ arg (start [0, 0, 0, 1]) 1 = 0 ∧ arg (start [0, 1, 0, 0]) 3 = 0
      ∧ (arg high 1 ≠ 0 ∧ arg high 3 ≠ 0 ∧ ¬regions high (arg high 3 - 1))
      ∧ (arg both 1 ≠ 0 ∧ arg both 3 ≠ 0 ∧ regions both (arg both 3 - 1) ∧ clash both (arg both 3 - 1)) := by
  simp only [regions, clash, InCw, Overlaps, Written]; decide

theorem witness_RsEncStoresCodewords :
    let ok := startCw [0, 1, 255, 3841] [2#8]
    let high := start [4096, 1, 1, 0]
    let both := start [0, 2, 255, 1]
    (arg ok 2 ≠ 0 ∧ arg ok 1 ≠ 0 ∧ arg ok 2 ≤ 255 ∧ InCw (arg ok 0) (arg ok 1) ∧ InCw (arg ok 3) (arg ok 2)
        ∧ ¬Overlaps (arg ok 3) (arg ok 2) (arg ok 0) (arg ok 1) ∧ Written ok (arg ok 0) (arg ok 1))
      ∧ arg (start [0, 1, 0, 0]) 2 = 0
      ∧ (arg (start [0, 0, 1, 0]) 2 ≠ 0 ∧ arg (start [0, 0, 1, 0]) 1 = 0)
      ∧ (arg (start [0, 1, 256, 1]) 1 ≠ 0 ∧ arg (start [0, 1, 256, 1]) 2 > 255)
      ∧ (arg high 2 ≠ 0 ∧ arg high 1 ≠ 0 ∧ arg high 2 ≤ 255 ∧ ¬InCw (arg high 0) (arg high 1))
      ∧ (arg both 2 ≠ 0 ∧ arg both 1 ≠ 0 ∧ arg both 2 ≤ 255 ∧ InCw (arg both 0) (arg both 1)
        ∧ InCw (arg both 3) (arg both 2) ∧ Overlaps (arg both 3) (arg both 2) (arg both 0) (arg both 1)) := by
  simp only [InCw, Overlaps, Written]; decide

theorem witness_BchCodeResults :
    (∀ p ∈ [1, 0xFFFF], arg (start [0xFFFF, p]) 0 ≤ 0xFFFF ∧ 1 ≤ arg (start [0xFFFF, p]) 1
        ∧ arg (start [0xFFFF, p]) 1 ≤ 0xFFFF)
      ∧ arg (start [0x10000, 1]) 0 > 0xFFFF ∧ arg (start [0, 0x10000]) 1 > 0xFFFF
      ∧ (arg (start [0xFFFF, 0]) 0 ≤ 0xFFFF ∧ arg (start [0xFFFF, 0]) 1 = 0) := by decide

theorem witness_FormatAndVersionWords :
    (arg (start [3, 7]) 0 ≤ 3 ∧ arg (start [3, 7]) 1 ≤ 7) ∧ arg (start [4, 0]) 0 > 3 ∧ arg (start [0, 8]) 1 > 7
      ∧ arg (start [63]) 0 ≤ 63 ∧ arg (start [64]) 0 > 63 := by decide

theorem witness_MxClearStartsMatrix :
    (∀ v ∈ [1, 40], 1 ≤ arg (start [v]) 0 ∧ arg (start [v]) 0 ≤ 40)
      ∧ arg (start [0]) 0 < 1 ∧ arg (start [41]) 0 > 40 := by decide

theorem gridOk_startMx (l : List Nat) (c : MxCell) : GridOk (startMx l c) := by
  refine ⟨show 1 ≤ 40 by decide, rfl, fun r hr => ?_⟩
  rw [List.eq_of_mem_replicate hr]
  rfl

theorem witness_MxSetWritesOneCell :
    (GridOk (startMx [20, 20, 3] .dark) ∧ cellCode .unset = arg (startMx [20, 20, 3] .dark) 2
        ∧ (startMx [20, 20, 3] .dark).mxVer ≠ 0
        ∧ arg (startMx [20, 20, 3] .dark) 0 < mxDim (startMx [20, 20, 3] .dark)
        ∧ arg (startMx [20, 20, 3] .dark) 1 < mxDim (startMx [20, 20, 3] .dark))
      ∧ (GridOk (start [0, 0, 2]) ∧ arg (start [0, 0, 2]) 2 ≠ 0 ∧ arg (start [0, 0, 2]) 2 ≠ 1
        ∧ arg (start [0, 0, 2]) 2 ≠ 3)
      ∧ (GridOk (start [0, 0, 1]) ∧ arg (start [0, 0, 1]) 2 = 1 ∧ (start [0, 0, 1]).mxVer = 0)
      ∧ (GridOk (startMx [21, 0, 0] .dark) ∧ arg (startMx [21, 0, 0] .dark) 2 = 0
        ∧ (startMx [21, 0, 0] .dark).mxVer ≠ 0
        ∧ arg (startMx [21, 0, 0] .dark) 0 ≥ mxDim (startMx [21, 0, 0] .dark)) := by
  refine ⟨⟨gridOk_startMx _ _, ?_⟩, ⟨?_, ?_⟩, ⟨?_, ?_⟩, gridOk_startMx _ _, ?_⟩
  all_goals first
    | decide
    | exact ⟨by decide, rfl, by decide⟩

theorem witness_MxGetAndMaskbit :
    ((startMx [20, 20] .dark).mxVer ≠ 0 ∧ arg (startMx [20, 20] .dark) 0 < mxDim (startMx [20, 20] .dark)
        ∧ arg (startMx [20, 20] .dark) 1 < mxDim (startMx [20, 20] .dark))
      ∧ (start [0, 0]).mxVer = 0
      ∧ ((startMx [0, 21] .dark).mxVer ≠ 0 ∧ arg (startMx [0, 21] .dark) 1 ≥ mxDim (startMx [0, 21] .dark))
      ∧ (arg (start [7, 176, 176]) 0 ≤ 7 ∧ arg (start [7, 176, 176]) 1 ≤ 176 ∧ arg (start [7, 176, 176]) 2 ≤ 176)
      ∧ arg (start [8, 0, 0]) 0 > 7 ∧ arg (start [0, 177, 0]) 1 > 176 ∧ arg (start [0, 0, 177]) 2 > 176 := by decide

/-- A version 1 matrix of light cells with one bit too many in BS[A]. -/
def leftover : State := { startMx [7] .light with bsA := [true] }

theorem witness_MxPlaceFillsUnsetCells :
    (∀ m ∈ [0, 7, 0xFFFFFFFF], arg (startMx [m] .unset) 0 ≤ 7 ∨ arg (startMx [m] .unset) 0 = 0xFFFFFFFF)
      ∧ (GridOk (startMx [7] .unset) ∧ (startMx [7] .unset).mxVer ≠ 0
        ∧ (bs (startMx [7] .unset) .A).length ≤ fillable (startMx [7] .unset).grid (mxDim (startMx [7] .unset))
        ∧ (traverse (mxDim (startMx [7] .unset)))[0]? = some (20, 20)
        ∧ cellAt (startMx [7] .unset).grid 20 20 = .unset)
      ∧ (GridOk (startMx [7] .light) ∧ (bs (startMx [7] .light) .A).length
          ≤ fillable (startMx [7] .light).grid (mxDim (startMx [7] .light))
        ∧ cellAt (startMx [7] .light).grid 0 0 ≠ .unset)
      ∧ (∀ m ∈ [8, 0xFFFFFFFE], ¬(arg (start [m]) 0 ≤ 7 ∨ arg (start [m]) 0 = 0xFFFFFFFF))
      ∧ (GridOk (start [7]) ∧ arg (start [7]) 0 ≤ 7 ∧ (start [7]).mxVer = 0)
      ∧ (GridOk leftover ∧ leftover.mxVer ≠ 0
        ∧ (bs leftover .A).length > fillable leftover.grid (mxDim leftover)) := by
  refine ⟨by decide, ⟨gridOk_startMx _ _, by decide +kernel⟩, ⟨gridOk_startMx _ _, by decide +kernel⟩, by decide,
    ⟨⟨by decide, rfl, by decide⟩, by decide⟩, gridOk_startMx [7] .light, by decide +kernel⟩

theorem witness_MxScoreResults :
    ((startMx [] .light).mxVer ≠ 0
        ∧ ¬∃ x < mxDim (startMx [] .light), ∃ y < mxDim (startMx [] .light),
          cellAt (startMx [] .light).grid x y = .unset)
      ∧ (start []).mxVer = 0
      ∧ ((startMx [] .unset).mxVer ≠ 0
        ∧ ∃ x < mxDim (startMx [] .unset), ∃ y < mxDim (startMx [] .unset),
          cellAt (startMx [] .unset).grid x y = .unset)
      ∧ (∀ v ∈ [1, 40], 1 ≤ v ∧ v ≤ 40) := by decide +kernel

/-- Non-zero bytes, lists that are not empty and not all zero, and the ends of the ranges. -/
theorem witness_ExpAndLogTables : (1#8 : Byte) ≠ 0#8 ∧ (0xFF#8 : Byte) ≠ 0#8 ∧ gfexp 254 = 0x8E#8 := by decide
theorem witness_FieldLaws : (0x53#8 : Byte) ≠ 0#8 ∧ (0xCA#8 : Byte) ≠ 0#8 := by decide
theorem witness_GeneratorPolynomial : ∀ e ∈ [0, 255], e ≤ 255 := by decide
theorem witness_PolymulCoefficients :
    ([1#8] : List Byte) ≠ [] ∧ ([2#8, 3#8] : List Byte) ≠ [] ∧ 1 < ([1#8] : List Byte).length + [2#8, 3#8].length - 1 := by
  decide
/-- A = x + 2 and B = 0x + 3: the quotient is its multiple by 3's inverse, the remainder 0, with no coefficient from
deg B = 0 on. -/
theorem witness_PolymodIsRemainder :
    ([1#8, 2#8] : List Byte) ≠ [] ∧ (∃ c ∈ ([0#8, 3#8] : List Byte), c ≠ 0#8)
      ∧ (∀ d < 3, coeffOf [1#8, 2#8] d
          = coeffOf (polymul [gfinv 3#8, gfmul 2#8 (gfinv 3#8)] [0#8, 3#8]) d ^^^ coeffOf [0#8] d)
      ∧ (∀ e, 0 < e → e < 3 → coeffOf [0#8, 3#8] e = 0#8) := by
  refine ⟨by decide, by decide, by decide, ?_⟩
  intro e h1 h2
  interval_cases e <;> decide
theorem witness_ShiftRegisterGivesCodewords : ∀ e ∈ [1, 255], 1 ≤ e ∧ e ≤ 255 := by decide
theorem witness_BchIsRemainder : ∀ p ∈ [1, 0x537, 0x1F25, 0xFFFF], 1 ≤ p := by decide
theorem witness_TraversalOrderAndCapacity :
    (∀ v ∈ [1, 40], 1 ≤ v ∧ v ≤ 40) ∧ 9 < (dim 1 - 1) / 2 ∧ 20 < dim 1 ∧ (0, 20) ∈ traverse (dim 1) := by
  decide +kernel
theorem witness_PenaltiesTwoAndFour : ∀ N ∈ [2, 177], 2 ≤ N := by decide
theorem witness_PenaltyThreeFinderLikePatterns : ∀ N ∈ [7, 177], 7 ≤ N := by decide

theorem witness_CtrlRegister : (1#32 : Word).getLsbD 1 = false ∧ (3#32 : Word).getLsbD 1 = true := by decide
theorem witness_CmdWriteIssues : State.reset.busy = false ∧ (start []).busy = true := by decide
theorem witness_ArgRegisters :
    State.reset.busy = false ∧ (start []).busy = true ∧ (5 : Fin 6) ≠ 0
      ∧ exec .nop (start []) = .next (okState (start [])) := ⟨rfl, rfl, by decide, rfl⟩
theorem witness_ResultAndMirrorRegisters : State.reset.busy = false ∧ (start []).busy = true := by decide
theorem witness_CwramWindow :
    (∀ i ∈ [0, 4095], i < 4096)
      ∧ (({ State.reset with cw := [(4095, 7#8)] } : State).busy = false
        ∧ cwGet? ({ State.reset with cw := [(4095, 7#8)] } : State).cw 4095 = some 7#8)
      ∧ (start []).busy = true ∧ (State.reset.busy = false ∧ cwGet? State.reset.cw 0 = none) := by decide
theorem witness_ReservedOffsetsAndBits :
    (∀ off ∈ [0x038, 0x03C, 0x054, 0x05C, 0x070, 0x3FFC, 0x8000, 0xFFFC], off % 4 = 0 ∧ off < 0x10000
        ∧ (0x038 ≤ off ∧ off < 0x040 ∨ 0x054 ≤ off ∧ off < 0x060 ∨ 0x070 ≤ off ∧ off < 0x4000 ∨ 0x8000 ≤ off))
      ∧ (0xFFFFFFFC#32 : Word).getLsbD 0 = (0#32 : Word).getLsbD 0
      ∧ (0xFFFFFFFC#32 : Word).getLsbD 1 = (0#32 : Word).getLsbD 1
      ∧ (0xFFFFFFF5#32 : Word).getLsbD 1 = (0#32 : Word).getLsbD 1
      ∧ (0xFFFFFFF5#32 : Word).getLsbD 3 = (0#32 : Word).getLsbD 3 := by decide
theorem witness_OnlyAccessesOutsideTheContractAreRefused :
    (({ rst := true, re := true } : PortInput).rst = true ∧ ({ rst := true, re := true } : PortInput).re = true)
      ∧ (({ we := true, otherHost := true } : PortInput).we = true
        ∧ ({ we := true, otherHost := true } : PortInput).otherHost = true)
      ∧ (({ re := true, addr := 0xFFFF#16 } : PortInput).re = true
        ∧ ({ re := true, addr := 0xFFFF#16 } : PortInput).addr.toNat % 4 ≠ 0)
      ∧ (({ rst := true } : PortInput).rst = true ∧ ({ rst := true } : PortInput).we = false
        ∧ ({ rst := true } : PortInput).re = false)
      ∧ (({} : PortInput).we = false ∧ ({} : PortInput).re = false)
      ∧ (({ re := true, addr := 0xFFFC#16 } : PortInput).we ≠ ({ re := true, addr := 0xFFFC#16 } : PortInput).re
        ∧ ({ re := true, addr := 0xFFFC#16 } : PortInput).size = 0b10#2
        ∧ ({ re := true, addr := 0xFFFC#16 } : PortInput).addr.toNat % 4 = 0) := by decide
theorem witness_WritesWhileBusy :
    (start []).busy = true
      ∧ (∀ off ∈ [0x01C, 0x020, 0x034, 0x4000, 0x7FFC], off = 0x01C ∨ (off % 4 = 0 ∧ 0x020 ≤ off ∧ off ≤ 0x034)
        ∨ (off % 4 = 0 ∧ 0x4000 ≤ off ∧ off ≤ 0x7FFC))
      ∧ (∀ off ∈ [0x000, 0x010, 0x038, 0x3FFC, 0x8000, 0xFFFC], off % 4 = 0 ∧ off < 0x10000
        ∧ (off < 0x014 ∨ 0x038 ≤ off ∧ off < 0x4000 ∨ 0x8000 ≤ off))
      ∧ (1#32 : Word).getLsbD 1 = false ∧ (2#32 : Word).getLsbD 1 = true := by decide
theorem witness_ReadsWhileBusy : (start []).busy = true ∧ 4095 < 4096 := by decide
theorem witness_ReadsHaveNoSideEffects :
    State.reset.busy = false ∧ (∀ i, Reg.id = .cw i → (cwGet? State.reset.cw i).isSome = true)
      ∧ (∀ i, Reg.cw 0 = .cw i → (cwGet? ({ State.reset with cw := [(0, 7#8)] } : State).cw i).isSome = true) := by
  refine ⟨rfl, ?_, ?_⟩
  · intro i h
    cases h
  · intro i h
    cases h
    rfl
theorem witness_HardResetValues :
    ({ rst := true } : PortInput).rst = true ∧ ({ rst := true } : PortInput).we = false
      ∧ ({ rst := true } : PortInput).re = false := by decide
theorem witness_SoftResetKeepsCwram :
    (3#32 : Word).getLsbD 1 = true ∧ ({ State.reset with cw := [(0, 7#8)] } : State).busy = false := by decide
theorem witness_AbortForgetsOutputRegion :
    ∀ w ∈ [(0x15, Instr.bsExtract .A), (0x30, .rsGen), (0x31, .polyMul), (0x32, .polyMod), (0x33, .rsEnc), (0x00, .nop)],
      ({ start [1, 2, 3, 4, 5] with cmd := BitVec.ofNat 32 w.1 } : State).busy = true
        ∧ decodeWord ({ start [1, 2, 3, 4, 5] with cmd := BitVec.ofNat 32 w.1 } : State).cmd = .ok w.2 := by decide
theorem witness_AbortForgetsOutputRegion_illegal :
    ({ start [] with cmd := 0xFF#32 } : State).busy = true
      ∧ decodeWord ({ start [] with cmd := 0xFF#32 } : State).cmd = .error .reservedOp := by decide

/-- A state that meets the invariant with a command in flight, a written byte and a matrix. -/
def busyState : State := { startMx [] .light with cw := [(0, 7#8), (4095, 9#8)], wait := 2 }

theorem witness_EveryStepKeepsInvariant : Inv busyState ∧ step busyState = .next (okState busyState) := by
  refine ⟨⟨by unfold Memory.wf; decide, by unfold BuffersOk; decide, gridOk_startMx [] .light, ?_⟩, rfl⟩
  unfold StatusOk
  decide

theorem witness_ErrorChangesOnlyStatus :
    engineStep { start [] with cmd := 0x100#32 } = .next (errState 0x01#8 { start [] with cmd := 0x100#32 })
      ∧ (errState 0x01#8 { start [] with cmd := 0x100#32 }).err = true := ⟨rfl, rfl⟩
theorem witness_CommandsWriteOnlyTheirOutputs :
    exec .nop (start []) = .next (okState (start [])) ∧ writesBs .nop ≠ some .A ∧ writesCw .nop = false
      ∧ writesCells .nop = false ∧ Instr.nop ≠ .mxClear ∧ (4 : Fin 5) ∉ writesRes .nop :=
  ⟨rfl, by decide, by decide, by decide, by decide, by decide⟩
/-- A byte on each side of RS_GEN's output region, and cells that MX_SET and MX_PLACE do not write. -/
theorem witness_CommandsWriteOnlyTheirOutputs_frames :
    (3 < (outputRegion .rsGen (start [2, 4])).1
        ∧ (outputRegion .rsGen (start [2, 4])).1 + (outputRegion .rsGen (start [2, 4])).2 ≤ 7)
      ∧ ¬WritesCell .mxSet (startMx [5, 0, 1] .unset) 0 5
      ∧ ¬WritesCell (.mxPlace .A) (startMx [7] .unset) 6 0 ∧ ¬WritesCell (.mxPlace .A) (startMx [7] .light) 20 20 := by
  unfold WritesCell; decide
theorem witness_CommandStatementRuns :
    State.reset.busy = false ∧ ([0x53#32, 0xCA#32] : List Word).length = operandCount .gfAdd := by decide
/-- An ARG write that the busy engine drops, a WAIT and an idle clock edge. -/
theorem witness_EngineTransitionComes :
    let p : PortInput := { we := true, addr := 0x020#16, wdata := 7#32 }
    let s : State := { start [] with bus := [.cycle p, .wait, .cycle {}], wait := 2 }
    s.busy = true ∧ ∀ q, HostOp.cycle q ∈ s.bus → Harmless q := by
  refine ⟨rfl, fun q hq => ?_⟩
  simp only [List.mem_cons, HostOp.cycle.injEq, reduceCtorEq, List.not_mem_nil, or_false, false_or] at hq
  unfold Harmless
  rcases hq with rfl | rfl <;> decide

end Sys2Proof.Tests
end

section
/-! PROOFS. What a command's writes reach (30 R73, R74): one relation, closed under the updates the meanings are made of,
and one case split over the commands. The frame of a command and the engine's half of the invariant both follow from it. -/

namespace Sys2Proof.Machine

open Safety

/-! ## The parts of the state a command writes -/

theorem bs_setBs_ne (s : State) (v : Bits) : ∀ {b c : Buf}, c ≠ b → bs (setBs s b v) c = bs s c
  | .A, .A, h => absurd rfl h
  | .A, .B, _ => rfl
  | .B, .A, _ => rfl
  | .B, .B, h => absurd rfl h

theorem buffersOk_iff (s : State) : BuffersOk s ↔ ∀ b, (bs s b).length ≤ Config.bsMaxBits :=
  ⟨fun ⟨hA, hB⟩ b => by cases b <;> assumption, fun h => ⟨h .A, h .B⟩⟩

/-- From `s` to `t` the command `i` wrote at most its outputs (30 R74), and each part of the data that was well formed
still is. -/
structure CommandWrites (i : Instr) (s t : State) : Prop where
  bs_eq : ∀ b, writesBs i ≠ some b → bs t b = bs s b
  buffersOk : BuffersOk s → BuffersOk t
  cw_eq : writesCw i = false → t.cw = s.cw
  cwGet?_eq : ∀ a, a < (outputRegion i s).1 ∨ (outputRegion i s).1 + (outputRegion i s).2 ≤ a →
    cwGet? t.cw a = cwGet? s.cw a
  wf : Memory.wf s.cw → Memory.wf t.cw
  grid_eq : writesCells i = false → t.grid = s.grid
  cellAt_eq : ∀ x y, ¬WritesCell i s x y → cellAt t.grid x y = cellAt s.grid x y
  mxVer_eq : i ≠ .mxClear → t.mxVer = s.mxVer
  gridOk : GridOk s → GridOk t
  res_eq : ∀ k, k ∉ writesRes i → t.res.get k = s.res.get k

section
variable {i : Instr} {s t : State}

theorem CommandWrites.refl (i : Instr) (s : State) : CommandWrites i s s where
  bs_eq _ _ := rfl
  buffersOk h := h
  cw_eq _ := rfl
  cwGet?_eq _ _ := rfl
  wf h := h
  grid_eq _ := rfl
  cellAt_eq _ _ _ := rfl
  mxVer_eq _ := rfl
  gridOk h := h
  res_eq _ _ := rfl

/-! ## The updates -/

theorem CommandWrites.succeed (h : CommandWrites i s t) : CommandWrites i s (succeed t) := { h with }

theorem CommandWrites.failWith (h : CommandWrites i s t) (c : ErrCode) : CommandWrites i s (failWith c t) := { h with }

/-- Free values may be drawn (70 R246). -/
theorem CommandWrites.drawn (h : CommandWrites i s t) (d : Nat) : CommandWrites i s { t with draws := d } := { h with }

/-- A result register of the outputs column is written. -/
theorem CommandWrites.setRes (h : CommandWrites i s t) (k : Fin 5) (v : Word)
    (hk : k ∈ writesRes i := by simp [writesRes]) : CommandWrites i s (setRes t k v) :=
  { h with
    res_eq := fun j hj => by
      have hne : j ≠ k := fun e => hj (e ▸ hk)
      rw [setRes_res, ResRegs.get_set_other _ _ _ _ hne, h.res_eq j hj] }

/-- The command's buffer is written, within its capacity (10 R31). -/
theorem CommandWrites.setBs (h : CommandWrites i s t) (b : Buf) (v : Bits) (hw : writesBs i = some b)
    (hv : BuffersOk s → v.length ≤ Config.bsMaxBits) : CommandWrites i s (setBs t b v) := by
  have hbs : ∀ c, writesBs i ≠ some c → bs (Machine.setBs t b v) c = bs s c := fun c hc => by
    have hne : c ≠ b := fun e => hc (e ▸ hw)
    rw [bs_setBs_ne _ _ hne, h.bs_eq c hc]
  have hlen : BuffersOk s → BuffersOk (Machine.setBs t b v) := fun hs => (buffersOk_iff _).mpr fun c => by
    by_cases hc : c = b
    · rw [hc, bs_setBs_same]
      exact hv hs
    · rw [bs_setBs_ne _ _ hc]
      exact (buffersOk_iff t).mp (h.buffersOk hs) c
  cases b <;> exact { h with bs_eq := hbs, buffersOk := hlen }

/-- The command's output region, in bounds (20 R58), is stored to. -/
theorem CommandWrites.store (h : CommandWrites i s t) {off n : Nat} {v : List Byte} (hb : ¬inCw off n = false)
    (hw : writesCw i = true) (hr : outputRegion i s = (off, n)) (hn : v.length = n) :
    CommandWrites i s { t with cw := writeBytes t.cw off v } :=
  { h with
    cw_eq := fun hf => by simp [hw] at hf
    cwGet?_eq := fun a ha => by
      rw [cwGet?_writeBytes_other _ _ _ _ (by simpa [hr, hn] using ha), h.cwGet?_eq a ha]
    wf := fun hs => wf_writeBytes (h.wf hs) (by simpa [inCw, hn] using hb) }

/-- Cells that the command may write are written, and the matrix keeps its shape (10 R34). -/
theorem CommandWrites.ofGrid (g : List (List MxCell)) (hw : writesCells i = true)
    (hg : ∀ N, Square N s.grid → Square N g)
    (hc : ∀ x y, ¬WritesCell i s x y → cellAt g x y = cellAt s.grid x y) : CommandWrites i s { s with grid := g } :=
  { CommandWrites.refl i s with
    grid_eq := fun hf => by simp [hw] at hf
    cellAt_eq := hc
    gridOk := fun hs => ⟨hs.1, hg _ hs.2⟩ }

/-- MX_CLEAR's matrix, of a version from VER_MIN to VER_MAX (45 R182). -/
theorem CommandWrites.newMatrix (s : State) {v : Nat} (hv : ¬(v < Config.verMin ∨ v > Config.verMax)) :
    CommandWrites .mxClear s { s with
      mxVer := v, grid := List.replicate (dim v) (List.replicate (dim v) .unset) } :=
  { CommandWrites.refl .mxClear s with
    grid_eq := fun hf => by simp [writesCells] at hf
    cellAt_eq := fun _ _ hn => absurd trivial hn
    mxVer_eq := fun hn => absurd rfl hn
    gridOk := fun _ => by
      simp only [Config.verMin, Config.verMax] at hv
      have hd : dim v = if v = 0 then 0 else dim v := (if_neg (by omega)).symm
      exact ⟨by simp only; omega, hd ▸ square_replicate (dim v) .unset⟩ }

end

/-! ## The commands -/

/-- If the outcome `r` is a next state, the command `i` wrote at most its outputs. -/
def WritesWithin (i : Instr) (s : State) (r : Result) : Prop := ∀ t, r = .next t → CommandWrites i s t

theorem writesWithin_complete {i : Instr} {s u : State} (h : CommandWrites i s u) : WritesWithin i s (complete u) := by
  rintro t ⟨⟩
  exact h.succeed

theorem writesWithin_raise (i : Instr) (s : State) (c : ErrCode) : WritesWithin i s (raiseError c s) := by
  rintro t ⟨⟩
  exact (CommandWrites.refl i s).failWith c

/-- A failed test of POLY_MOD's divisor leaves the draws of its bytes (log entry 11). -/
theorem writesWithin_raise_drawn (i : Instr) (s : State) (c : ErrCode) (d : Nat) :
    WritesWithin i s (raiseError c { s with draws := d }) := by
  rintro t ⟨⟩
  exact ((CommandWrites.refl i s).drawn d).failWith c

/-- BS_APPEND_CW grows its buffer by eight bits a byte (41 R108). -/
theorem writesWithin_execBsAppendCw (b : Buf) (s : State) : WritesWithin (.bsAppendCw b) s (execBsAppendCw b s) := by
  unfold execBsAppendCw
  split_ifs with hb hf
  · exact writesWithin_raise _ _ _
  · exact writesWithin_raise _ _ _
  · refine writesWithin_complete (((CommandWrites.refl _ s).setBs b _ rfl fun _ => ?_).drawn _)
    simp only [List.length_append, bytesBits_length, readBytes_length]
    omega

theorem writesWithin_execPolyMul (s : State) : WritesWithin .polyMul s (execPolyMul s) := by
  unfold execPolyMul
  split_ifs with h0 hA hB hR
  any_goals exact writesWithin_raise _ _ _
  exact writesWithin_complete
    (((CommandWrites.refl _ s).store hR rfl rfl (by simp)).drawn _)

theorem writesWithin_execPolyMod (s : State) : WritesWithin .polyMod s (execPolyMod s) := by
  unfold execPolyMod
  split_ifs with h0 hA hB hR
  any_goals exact writesWithin_raise _ _ _
  dsimp only
  split_ifs
  · exact writesWithin_raise_drawn _ _ _ _
  · exact writesWithin_complete (((CommandWrites.refl _ s).store hR rfl rfl (by simp)).drawn _)

theorem writesWithin_execRsEnc (s : State) : WritesWithin .rsEnc s (execRsEnc s) := by
  unfold execRsEnc
  split_ifs with h0 h1 h2 hD hE
  any_goals exact writesWithin_raise _ _ _
  exact writesWithin_complete (((CommandWrites.refl _ s).store hE rfl rfl (by simp)).drawn _)

/-- MX_SET writes the cell its operands name (45 R183). -/
theorem writesWithin_execMxSet (s : State) : WritesWithin .mxSet s (execMxSet s) := by
  unfold execMxSet
  split
  · exact writesWithin_raise _ _ _
  · split_ifs
    any_goals exact writesWithin_raise _ _ _
    exact writesWithin_complete
      (.ofGrid _ rfl (fun _ hs => square_setCell hs _ _ _) fun _ _ hn => cellAt_setCell_other _ _ hn)

/-- MX_PLACE writes UNSET cells outside column 6 (45 R188). -/
theorem writesWithin_execMxPlace (b : Buf) (s : State) : WritesWithin (.mxPlace b) s (execMxPlace b s) := by
  unfold execMxPlace
  split
  · exact writesWithin_raise _ _ _
  · split_ifs with hv hl
    any_goals exact writesWithin_raise _ _ _
    have hd : mxDim s = dim s.mxVer := mxDim_of_ne_zero hv
    refine writesWithin_complete ((((CommandWrites.ofGrid _ rfl (fun _ hs => square_place hs _) ?_).setRes 0 _).setRes
      1 _).setRes 2 _)
    intro x y hn
    simp only [WritesCell, hd] at hn ⊢
    exact cellAt_place_other _ hn

/-- Every command writes at most its outputs. -/
theorem writesWithin_exec (i : Instr) (s : State) : WritesWithin i s (exec i s) := by
  have h := CommandWrites.refl i s
  cases i
  case nop => exact writesWithin_complete h
  case bsClear b => exact writesWithin_complete (h.setBs b _ rfl fun _ => Nat.zero_le _)
  case bsAppendBit b | bsAppendBits b | bsAppendBs b =>
    simp only [exec, execBsAppendBit, execBsAppendBits, execBsAppendBs]
    split_ifs
    any_goals exact writesWithin_raise _ _ _
    refine writesWithin_complete (h.setBs b _ rfl fun _ => ?_)
    simp only [List.length_append, List.length_singleton, bitsMsb_length]
    omega
  case bsXor b =>
    simp only [exec, execBsXor]
    split_ifs
    · exact writesWithin_raise _ _ _
    · refine writesWithin_complete (h.setBs b _ rfl fun hs => ?_)
      have hb := (buffersOk_iff s).mp hs b
      simp only [List.length_zipWith]
      omega
  case bsExtract b =>
    simp only [exec, execBsExtract]
    split_ifs with hb
    · exact writesWithin_raise _ _ _
    · exact writesWithin_complete (h.store hb rfl rfl (by simp))
  case bsAppendCw b => exact writesWithin_execBsAppendCw b s
  case rsGen =>
    simp only [exec, execRsGen]
    split_ifs with he hb
    any_goals exact writesWithin_raise _ _ _
    exact writesWithin_complete (h.store hb rfl rfl (by simp))
  case polyMul => exact writesWithin_execPolyMul s
  case polyMod => exact writesWithin_execPolyMod s
  case rsEnc => exact writesWithin_execRsEnc s
  case mxClear =>
    simp only [exec, execMxClear]
    split_ifs with hv
    · exact writesWithin_raise _ _ _
    · exact writesWithin_complete (.newMatrix s hv)
  case mxSet => exact writesWithin_execMxSet s
  case mxPlace b => exact writesWithin_execMxPlace b s
  case bsGetBit | gfAdd | gfMul | gfInv | gfExp | gfLog | mxGet | mxMaskbit =>
    simp only [exec, execBsGetBit, execGfAdd, execGfMul, execGfInv, execGfExp, execGfLog, execMxGet, execMxMaskbit]
    split_ifs
    any_goals exact writesWithin_raise _ _ _
    exact writesWithin_complete (h.setRes 0 _)
  case bchCode | verInfo =>
    simp only [exec, execBchCode, execVerInfo]
    split_ifs
    any_goals exact writesWithin_raise _ _ _
    exact writesWithin_complete ((h.setRes 0 _).setRes 1 _)
  case fmtInfo =>
    simp only [exec, execFmtInfo]
    split_ifs
    · exact writesWithin_raise _ _ _
    · exact writesWithin_complete (((h.setRes 0 _).setRes 1 _).setRes 2 _)
  case mxScore =>
    simp only [exec, execMxScore]
    split_ifs
    any_goals exact writesWithin_raise _ _ _
    exact writesWithin_complete (((((h.setRes 0 _).setRes 1 _).setRes 2 _).setRes 3 _).setRes 4 _)

end Sys2Proof.Machine
end

section
/-! PROOFS. The invariant (10 R25, R31, R34, R35, 60 R211 to R214): the engine's transition, every host access and both
resets keep it. -/

namespace Sys2Proof.Machine

open Safety

/-! ## The engine's transition -/

theorem ErrCode.number_ne_zero (c : ErrCode) : c.number ≠ 0x00#8 := by cases c <;> decide

theorem ErrCode.number_le (c : ErrCode) : c.number.toNat ≤ 0x11 := by cases c <;> decide

theorem statusOk_succeed (s : State) : StatusOk (succeed s) := by simp [StatusOk]

theorem statusOk_failWith (c : ErrCode) (s : State) : StatusOk (failWith c s) := by
  simp [StatusOk, c.number_ne_zero, c.number_le]

/-- Both completions give a STATUS of the life cycle (60 R212, R213). -/
theorem statusOk_of_completes {s t : State} (h : Completes s (.next t)) : StatusOk t := by
  cases h with
  | ok u _ => exact statusOk_succeed u
  | error c d => exact statusOk_failWith c _

theorem inv_exec {i : Instr} {s t : State} (hs : Inv s) (h : exec i s = .next t) : Inv t := by
  obtain ⟨hcw, hbuf, hgrid, -⟩ := hs
  have hw := writesWithin_exec i s t h
  exact ⟨hw.wf hcw, hw.buffersOk hbuf, hw.gridOk hgrid, statusOk_of_completes (h ▸ completes_exec i s)⟩

theorem inv_failWith {s : State} (hs : Inv s) (c : ErrCode) : Inv (failWith c s) := by
  obtain ⟨hcw, hbuf, hgrid, -⟩ := hs
  exact ⟨hcw, hbuf, hgrid, statusOk_failWith c s⟩

/-- The engine runs the decoded command or ends in ILLEGAL (30 R71). -/
theorem inv_engineStep {s t : State} (hs : Inv s) (h : engineStep s = .next t) : Inv t := by
  unfold engineStep at h
  split at h
  · cases h
    exact inv_failWith hs .illegal
  · exact inv_exec hs h

/-! ## The host's accesses -/

theorem gridOk_of_noMatrix {s : State} (hv : s.mxVer = 0) (hg : s.grid = []) : GridOk s := by
  simp [GridOk, hv, hg]

theorem inv_hardReset (s : State) : Inv (hardReset s) := by
  refine ⟨wf_nil, ?_, gridOk_of_noMatrix rfl rfl, ?_⟩
  · simp [BuffersOk]
  · simp [StatusOk]

theorem inv_softReset {s : State} (hs : Inv s) : Inv (softReset s) := by
  refine ⟨wf_cwAfterSoftReset hs.1, ?_, gridOk_of_noMatrix rfl rfl, ?_⟩
  · simp [BuffersOk]
  · simp [StatusOk]

theorem inv_hostRead {s : State} (hs : Inv s) (r : Reg) : Inv (hostRead r s) := hs

theorem inv_overrun {s : State} (hs : Inv s) : Inv (overrun s) := hs

theorem inv_issue {s : State} (hs : Inv s) (w : Word) : Inv (issue w s) := by
  obtain ⟨hcw, hbuf, hgrid, -⟩ := hs
  refine ⟨hcw, hbuf, hgrid, ?_⟩
  simp [StatusOk]

theorem inv_writeStatus {s : State} (hs : Inv s) (w : Word) : Inv (writeStatus w s) := by
  obtain ⟨hcw, hbuf, hgrid, hbusy, hstatus⟩ := hs
  refine ⟨hcw, hbuf, hgrid, fun hb => ?_, hstatus⟩
  obtain ⟨hd, he⟩ := hbusy hb
  exact ⟨by simp [hd], he⟩

theorem inv_writeCtrl {s : State} (hs : Inv s) (w : Word) : Inv (writeCtrl w s) := by
  unfold writeCtrl
  split_ifs
  · exact inv_softReset hs
  · exact hs

/-- A write that the busy engine drops sets OVR only (70 R247). -/
theorem inv_writeIdle {s t : State} (hs : Inv s) (ht : Inv t) : Inv (writeIdle s t) := by
  unfold writeIdle
  split_ifs
  · exact inv_overrun hs
  · exact ht

theorem inv_storeCell {s : State} (hs : Inv s) {a : Nat} (ha : a < Config.cwMax) (v : Byte) :
    Inv { s with cw := cwSet s.cw a v } := ⟨wf_cwSet v hs.1 ha, hs.2⟩

/-- A host write to a register, or to a byte that exists (20 R51). -/
theorem inv_hostWrite {s : State} (hs : Inv s) {r : Reg} (hr : ∀ a, r = .cw a → a < Config.cwMax) (w : Word) :
    Inv (hostWrite r w s) := by
  cases r
  case ctrl => exact inv_writeCtrl hs w
  case status => exact inv_writeStatus hs w
  case cmd => exact inv_writeIdle hs (inv_issue hs w)
  case arg i => exact inv_writeIdle hs hs
  case cw a => exact inv_writeIdle hs (inv_storeCell hs (hr a rfl) _)
  all_goals exact hs

theorem inv_portCycle {p : PortInput} {s t : State} (hs : Inv s) (h : portCycle p s = .next t) : Inv t := by
  rcases portCycle_cases h with rfl | rfl | rfl | rfl
  · exact inv_hardReset s
  · exact hs
  · exact inv_hostWrite hs (fun _ ha => regAt_cw_lt ha) _
  · exact inv_hostRead hs _

/-- The host takes its next operation off the queue, and a transition that is waited for comes one nearer (log entry 2). -/
theorem inv_takeHostOp {s : State} (hs : Inv s) (l : List HostOp) :
    Inv { s with bus := l, wait := s.wait - 1 } := by
  obtain ⟨hcw, hbuf, hgrid, hbusy, herr, hcode, hwait⟩ := hs
  refine ⟨hcw, hbuf, hgrid, hbusy, herr, hcode, fun hb => ?_⟩
  simp [hwait hb]

theorem inv_hostStep {s t : State} (hs : Inv s) (h : hostStep s = .next t) : Inv t := by
  rcases hostStep_cases h with ⟨-, rfl⟩ | ⟨p, l, -, hp⟩ | ⟨l, -, rfl⟩
  · exact hs
  · exact inv_portCycle (inv_takeHostOp hs l) hp
  · exact inv_hostRead (inv_takeHostOp hs l) _

/-! ## The step -/

theorem inv_step {s t : State} (hs : Inv s) (h : step s = .next t) : Inv t := by
  rcases step_cases s with ⟨-, he⟩ | ⟨-, he⟩
  · exact inv_engineStep hs (he ▸ h)
  · exact inv_hostStep hs (he ▸ h)

/-- Settles O55, by the two kinds of step: the engine's transition and the host's operation. -/
theorem everyStepKeepsInvariant : Obligations.EveryStepKeepsInvariant := fun _ _ => inv_step

end Sys2Proof.Machine
end

section
/-! PROOFS. The frame of a command (30 R73, R74). -/

namespace Sys2Proof.Machine

open Safety

/-- No command writes CTRL.IE, STATUS.OVR, CMD, ARG or the host's side (10 R24 to R27). -/
theorem exec_keeps_hostOwned {i : Instr} {s t : State} (h : exec i s = .next t) :
    t.ie = s.ie ∧ t.ovr = s.ovr ∧ t.cmd = s.cmd ∧ t.args = s.args ∧ t.rdata = s.rdata ∧ t.bus = s.bus := by
  have hc : Completes s (.next t) := h ▸ completes_exec i s
  cases hc with
  | ok u hu => exact ⟨hu.ie, hu.ovr, hu.cmd, hu.args, hu.rdata, hu.bus⟩
  | error c d => exact ⟨rfl, rfl, rfl, rfl, rfl, rfl⟩

theorem exec_keeps_args {i : Instr} {s t : State} (h : exec i s = .next t) : t.args = s.args := by
  obtain ⟨-, -, -, hargs, -, -⟩ := exec_keeps_hostOwned h
  exact hargs

/-- Settles O58: `exec_keeps_hostOwned` for what the host owns, `writesWithin_exec` for the command's outputs. -/
theorem commandsWriteOnlyTheirOutputs : Obligations.CommandsWriteOnlyTheirOutputs := by
  intro i s t h
  obtain ⟨hie, hovr, hcmd, hargs, hrdata, hbus⟩ := exec_keeps_hostOwned h
  have hw := writesWithin_exec i s t h
  exact ⟨hie, hovr, hcmd, hargs, hrdata, hbus, hw.bs_eq, hw.cw_eq, hw.cwGet?_eq, hw.grid_eq, hw.cellAt_eq, hw.mxVer_eq,
    hw.res_eq⟩

end Sys2Proof.Machine
end

section
/-! PROOFS. The host's registers (10 R20 to R29, R39): reads and writes of each offset, idle and busy. -/

namespace Sys2Proof.Machine

open Safety

/-! ## The register map -/

/-- The ARG registers stand at 0x020, 0x024, …, 0x034 (10 R20). -/
theorem regOfOffset_arg (j : Fin 6) : regOfOffset (0x020 + 4 * j) = .arg j := by fin_cases j <;> rfl

/-- The RES registers stand at 0x040, 0x044, …, 0x050 (10 R20). -/
theorem regOfOffset_res (j : Fin 5) : regOfOffset (0x040 + 4 * j) = .res j := by fin_cases j <;> rfl

/-- Nothing is mapped between the ARG and RES registers, nor between RES and the mirrors (10 R39). -/
theorem regOfOffset_gap {n : Nat} (h4 : n % 4 = 0) (h : 0x038 ≤ n ∧ n < 0x040 ∨ 0x054 ≤ n ∧ n < 0x060) :
    regOfOffset n = .reserved := by
  obtain rfl | rfl | rfl | rfl | rfl : n = 0x038 ∨ n = 0x03C ∨ n = 0x054 ∨ n = 0x058 ∨ n = 0x05C := by omega
  all_goals rfl

/-! ## Accesses -/

section
variable {off : Nat} {s : State}

/-- A read that draws nothing changes bus_rdata only (20 R61). -/
theorem portCycle_readAt_exact {v : Word} (h4 : off % 4 = 0) (hl : off < 0x10000)
    (hv : readReg (regOfOffset off) s = (v, s.draws)) :
    portCycle (readAt off) s = .next { s with rdata := v } := by
  rw [portCycle_readAt h4 hl, hostRead, hv]

/-- A read that is free while busy (70 R248). -/
theorem portCycle_readAt_busy {v : Word} (h4 : off % 4 = 0) (hl : off < 0x10000)
    (hv : readReg (regOfOffset off) s = readIdle s v) (hb : s.busy = true) :
    portCycle (readAt off) s = .next { s with rdata := Config.freeWord s.draws, draws := s.draws + 1 } := by
  rw [portCycle_readAt h4 hl, hostRead, hv, readIdle_busy hb]

/-- A read that is free while busy gives the register while idle (70 R248). -/
theorem portCycle_readAt_idle {v : Word} (h4 : off % 4 = 0) (hl : off < 0x10000)
    (hv : readReg (regOfOffset off) s = readIdle s v) (hb : s.busy = false) :
    portCycle (readAt off) s = .next { s with rdata := v } :=
  portCycle_readAt_exact h4 hl (hv.trans (readIdle_idle hb v))

/-- A write that is dropped while busy sets OVR only (70 R247). -/
theorem portCycle_writeAt_busy {t : State} {w : Word} (h4 : off % 4 = 0) (hl : off < 0x10000)
    (hw : hostWrite (regOfOffset off) w s = writeIdle s t) (hb : s.busy = true) :
    portCycle (writeAt off w) s = .next { s with ovr := true } := by
  rw [portCycle_writeAt h4 hl, hw, writeIdle_busy hb, overrun]

/-- A write that is dropped while busy acts while idle (70 R247). -/
theorem portCycle_writeAt_idle {t : State} {w : Word} (h4 : off % 4 = 0) (hl : off < 0x10000)
    (hw : hostWrite (regOfOffset off) w s = writeIdle s t) (hb : s.busy = false) :
    portCycle (writeAt off w) s = .next t := by
  rw [portCycle_writeAt h4 hl, hw, writeIdle_idle hb]

/-- A reserved offset reads 0 and ignores writes (10 R39). -/
theorem portCycle_reserved (h4 : off % 4 = 0) (hl : off < 0x10000) (hr : regOfOffset off = .reserved) (v : Word) :
    portCycle (readAt off) s = .next { s with rdata := 0#32 } ∧ portCycle (writeAt off v) s = .next s := by
  rw [portCycle_readAt h4 hl, portCycle_writeAt h4 hl, hr]
  exact ⟨rfl, rfl⟩

end

/-! ## CTRL and STATUS -/

/-- A CTRL write looks at bits 0 and 1 only (10 R24, R39). -/
theorem writeCtrl_congr {v w : Word} (h0 : v.getLsbD 0 = w.getLsbD 0) (h1 : v.getLsbD 1 = w.getLsbD 1) (s : State) :
    writeCtrl v s = writeCtrl w s := by
  rw [writeCtrl, writeCtrl, h0, h1]

/-- A STATUS write looks at bits 1 and 3 only (10 R25, R39). -/
theorem writeStatus_congr {v w : Word} (h1 : v.getLsbD 1 = w.getLsbD 1) (h3 : v.getLsbD 3 = w.getLsbD 3) (s : State) :
    writeStatus v s = writeStatus w s := by
  rw [writeStatus, writeStatus, h1, h3]

/-- Writing 1 clears, writing 0 keeps (10 R25). -/
theorem and_not_eq_ite (b c : Bool) : (b && !c) = if c then false else b := by cases b <;> cases c <;> rfl

theorem ctrlWord_eq_ite (s : State) : ctrlWord s = if s.ie then 1#32 else 0#32 := by
  unfold ctrlWord
  cases s.ie <;> rfl

theorem statusFlags_lt (s : State) :
    s.busy.toNat + 2 * s.done.toNat + 4 * s.err.toNat + 8 * s.ovr.toNat < 16 := by
  have hb := s.busy.toNat_lt
  have hd := s.done.toNat_lt
  have he := s.err.toNat_lt
  have ho := s.ovr.toNat_lt
  omega

theorem statusWord_toNat (s : State) : (statusWord s).toNat =
    s.busy.toNat + 2 * s.done.toNat + 4 * s.err.toNat + 8 * s.ovr.toNat + 256 * s.errcode.toNat := by
  have hf := statusFlags_lt s
  rw [statusWord, BitVec.toNat_ofNat, Nat.mod_eq_of_lt (by omega)]

theorem getLsbD_eq_of_toNat {w : Word} {k : Nat} {b : Bool} (h : w.toNat / 2 ^ k % 2 = b.toNat) : w.getLsbD k = b := by
  rw [BitVec.getLsbD, Nat.testBit_eq_decide_div_mod_eq, h]
  cases b <;> rfl

/-- BUSY, DONE, ERR and OVR in bits 0 to 3 (10 R25). -/
theorem statusWord_bits (s : State) :
    (statusWord s).getLsbD 0 = s.busy ∧ (statusWord s).getLsbD 1 = s.done ∧ (statusWord s).getLsbD 2 = s.err
      ∧ (statusWord s).getLsbD 3 = s.ovr := by
  have hw := statusWord_toNat s
  have hb := s.busy.toNat_lt
  have hd := s.done.toNat_lt
  have he := s.err.toNat_lt
  have ho := s.ovr.toNat_lt
  refine ⟨?_, ?_, ?_, ?_⟩ <;> exact getLsbD_eq_of_toNat (by omega)

theorem extractLsb'_eq_of_toNat {w : Word} {k n : Nat} {c : BitVec n} (h : w.toNat / 2 ^ k % 2 ^ n = c.toNat) :
    w.extractLsb' k n = c :=
  BitVec.eq_of_toNat_eq (by rw [BitVec.extractLsb'_toNat, Nat.shiftRight_eq_div_pow, h])

/-- ERRCODE in [15:8], the other bits from 4 on 0 (10 R25). -/
theorem statusWord_fields (s : State) :
    (statusWord s).extractLsb' 4 4 = 0#4 ∧ (statusWord s).extractLsb' 8 8 = s.errcode
      ∧ (statusWord s).extractLsb' 16 16 = 0#16 := by
  have hw := statusWord_toNat s
  have hf := statusFlags_lt s
  refine ⟨extractLsb'_eq_of_toNat ?_, extractLsb'_eq_of_toNat ?_, extractLsb'_eq_of_toNat ?_⟩
  · rw [BitVec.toNat_zero]
    omega
  · omega
  · rw [BitVec.toNat_zero]
    omega

/-- The reserved bits of STATUS read 0 (10 R25, R39). -/
theorem statusWord_toNat_reserved (s : State) : (statusWord s).toNat % 256 < 16 ∧ (statusWord s).toNat < 65536 := by
  have hw := statusWord_toNat s
  have hf := statusFlags_lt s
  omega

theorem ctrlWord_toNat_lt (s : State) : (ctrlWord s).toNat < 2 := by
  rw [ctrlWord_eq_ite]
  split_ifs <;> decide

/-! ## The mirrors -/

theorem mxDim_word (s : State) :
    BitVec.ofNat 32 (mxDim s) = if s.mxVer = 0 then 0#32 else BitVec.ofNat 32 (17 + 4 * s.mxVer) := by
  unfold mxDim dim
  split_ifs <;> rfl

/-- The offsets of RES0 to RES4 and of the four mirrors (10 R20). -/
def resultOffsets : List Nat := [0x040, 0x044, 0x048, 0x04C, 0x050, 0x060, 0x064, 0x068, 0x06C]

/-- Each of them is free while busy (70 R248). -/
theorem readReg_resultOffset {off : Nat} (h : off ∈ resultOffsets) (s : State) :
    ∃ v, readReg (regOfOffset off) s = readIdle s v := by
  simp only [resultOffsets, List.mem_cons, List.not_mem_nil, or_false] at h
  rcases h with rfl | rfl | rfl | rfl | rfl | rfl | rfl | rfl | rfl <;> exact ⟨_, rfl⟩

/-- Each of them is read-only (10 R28, R29). -/
theorem hostWrite_resultOffset {off : Nat} (h : off ∈ resultOffsets) (w : Word) (s : State) :
    hostWrite (regOfOffset off) w s = s := by
  simp only [resultOffsets, List.mem_cons, List.not_mem_nil, or_false] at h
  rcases h with rfl | rfl | rfl | rfl | rfl | rfl | rfl | rfl | rfl <;> rfl

theorem resultOffset_aligned : ∀ off ∈ resultOffsets, off % 4 = 0 ∧ off < 0x10000 := by decide

/-- The offsets of ID, REV and PARAM_* (10 R20). -/
def constantOffsets : List Nat := [0x000, 0x004, 0x008, 0x00C, 0x010]

/-- Each of them is read-only (10 R21 to R23). -/
theorem hostWrite_constantOffset {off : Nat} (h : off ∈ constantOffsets) (w : Word) (s : State) :
    hostWrite (regOfOffset off) w s = s := by
  simp only [constantOffsets, List.mem_cons, List.not_mem_nil, or_false] at h
  rcases h with rfl | rfl | rfl | rfl | rfl <;> rfl

theorem constantOffset_aligned : ∀ off ∈ constantOffsets, off % 4 = 0 ∧ off < 0x10000 := by decide

/-! ## The obligations -/

/-- Settles O43, register by register; `exec_keeps_args` for the commands. -/
theorem argRegisters : Obligations.ArgRegisters := by
  refine ⟨fun s j v => ?_, fun i s t => exec_keeps_args, fun j => by fin_cases j <;> rfl⟩
  have h4 : (0x020 + 4 * (j : Nat)) % 4 = 0 := by omega
  have hl : 0x020 + 4 * (j : Nat) < 0x10000 := by omega
  have hr : readReg (regOfOffset (0x020 + 4 * j)) s = (s.args.get j, s.draws) := by
    rw [regOfOffset_arg]
    rfl
  have hw : hostWrite (regOfOffset (0x020 + 4 * j)) v s = writeIdle s { s with args := s.args.set j v } := by
    rw [regOfOffset_arg]
    rfl
  exact ⟨portCycle_readAt_exact h4 hl hr, portCycle_writeAt_idle h4 hl hw, portCycle_writeAt_busy h4 hl hw,
    ArgRegs.get_set_same _ _ _, fun k => ArgRegs.get_set_other _ _ _ _⟩

/-- Settles O46: each offset outside the map is in a gap between registers, or past them and outside the window. -/
theorem reservedOffsetsAndBits : Obligations.ReservedOffsetsAndBits := by
  intro s v w
  refine ⟨fun off h4 hl ho => portCycle_reserved h4 hl ?_ v, fun h0 h1 => ?_, fun h1 h3 => ?_, ctrlWord_toNat_lt s,
    statusWord_toNat_reserved s⟩
  · by_cases hg : off < 0x070
    · exact regOfOffset_gap h4 (by omega)
    · exact regOfOffset_reserved (by omega) (by omega)
  · rw [portCycle_writeAt rfl (by decide), portCycle_writeAt rfl (by decide)]
    exact congrArg _ (writeCtrl_congr h0 h1 s)
  · rw [portCycle_writeAt rfl (by decide), portCycle_writeAt rfl (by decide)]
    exact congrArg _ (writeStatus_congr h1 h3 s)

/-- Settles O39: the five reads draw nothing, and the five offsets are read-only. -/
theorem constantRegisters : Obligations.ConstantRegisters := by
  intro s v
  have read {off : Nat} {w : Word} (ho : off ∈ constantOffsets) (hw : readReg (regOfOffset off) s = (w, s.draws)) :
      portCycle (readAt off) s = .next { s with rdata := w } := by
    obtain ⟨h4, hl⟩ := constantOffset_aligned off ho
    exact portCycle_readAt_exact h4 hl hw
  refine ⟨read (by decide) rfl, read (by decide) rfl, read (by decide) rfl, read (by decide) rfl,
    read (by decide) rfl, fun off ho => ?_⟩
  obtain ⟨h4, hl⟩ := constantOffset_aligned off ho
  rw [portCycle_writeAt h4 hl, hostWrite_constantOffset ho]

/-- Settles O40, by the two branches of a CTRL write. -/
theorem ctrlRegister : Obligations.CtrlRegister := by
  intro s v
  have hw : portCycle (writeAt 0x014 v) s = .next (writeCtrl v s) := portCycle_writeAt rfl (by decide) v s
  refine ⟨?_, fun h1 => ?_, fun h1 => ⟨?_, rfl⟩, rfl⟩
  · rw [← ctrlWord_eq_ite]
    exact portCycle_readAt_exact rfl (by decide) rfl
  · rw [hw, writeCtrl, h1, if_neg Bool.false_ne_true]
  · rw [hw, writeCtrl, if_pos h1]

/-- Settles O41: the fields are those of `statusWord`, whatever the state. -/
theorem statusRegisterAndIrq : Obligations.StatusRegisterAndIrq := by
  intro s v
  obtain ⟨hbusy, hdone, herr, hovr⟩ := statusWord_bits s
  refine ⟨⟨statusWord s, portCycle_readAt_exact rfl (by decide) rfl, hbusy, hdone, herr, hovr, statusWord_fields s⟩,
    ?_, by rw [irq, Bool.and_eq_true]⟩
  rw [← and_not_eq_ite, ← and_not_eq_ite]
  exact portCycle_writeAt rfl (by decide) v s

/-- Settles O42: the latency is the one drawn at the issue. -/
theorem cmdWriteIssues : Obligations.CmdWriteIssues := by
  intro s w
  have hw : hostWrite (regOfOffset 0x01C) w s = writeIdle s (issue w s) := rfl
  exact ⟨fun hb => ⟨Config.latency s.draws, portCycle_writeAt_idle rfl (by decide) hw hb⟩,
    portCycle_writeAt_busy rfl (by decide) hw, portCycle_readAt_exact rfl (by decide) rfl, rfl⟩

/-- Settles O44: the nine reads are free while busy, and the nine offsets are read-only. -/
theorem resultAndMirrorRegisters : Obligations.ResultAndMirrorRegisters := by
  refine ⟨fun s v => ⟨fun hb => ?_, fun off ho => ?_⟩, fun j => by fin_cases j <;> rfl, rfl, rfl, rfl⟩
  · refine ⟨fun j => ?_, portCycle_readAt_idle rfl (by decide) rfl hb, portCycle_readAt_idle rfl (by decide) rfl hb,
      portCycle_readAt_idle rfl (by decide) rfl hb, ?_⟩
    · have hr : readReg (regOfOffset (0x040 + 4 * j)) s = readIdle s (s.res.get j) := by
        rw [regOfOffset_res]
        rfl
      exact portCycle_readAt_idle (by omega) (by omega) hr hb
    · rw [← mxDim_word]
      exact portCycle_readAt_idle rfl (by decide) rfl hb
  · obtain ⟨h4, hl⟩ := resultOffset_aligned off ho
    obtain ⟨w, hr⟩ := readReg_resultOffset ho s
    refine ⟨?_, fun hb => ⟨_, portCycle_readAt_busy h4 hl hr hb⟩⟩
    rw [portCycle_writeAt h4 hl, hostWrite_resultOffset ho]

end Sys2Proof.Machine
end

section
/-! PROOFS. The host's accesses in general (20): the CWRAM window, what a clock edge refuses, the host's turn, and reads
without side effects. -/

namespace Sys2Proof.Machine

open Safety

/-! ## The CWRAM window -/

/-- A window read of a written byte, while idle (20 R52). -/
theorem readWindow_written {s : State} {i : Nat} {c : Byte} (hb : s.busy = false) (hc : cwGet? s.cw i = some c) :
    readWindow s i = (c.setWidth 32, s.draws) := by
  rw [readWindow, hb, readByte_written hc]
  rfl

/-- A window read of an unwritten byte (70 R246), or of any byte while busy (70 R248). -/
theorem readWindow_free {s : State} {i : Nat} (h : s.busy = true ∨ cwGet? s.cw i = none) :
    readWindow s i = ((Config.freeByte s.draws).setWidth 32, s.draws + 1) := by
  by_cases hb : s.busy = true
  · rw [readWindow, if_pos hb]
  · rw [readWindow, if_neg hb, readByte_unwritten (h.resolve_left hb)]

/-- Settles O45: the four accesses at the window's offset, whose register is CW[i]. -/
theorem cwramWindow : Obligations.CwramWindow := by
  intro s i v hi
  have h4 : (0x4000 + 4 * i) % 4 = 0 := by omega
  have hl : 0x4000 + 4 * i < 0x10000 := by omega
  have hr : readReg (regOfOffset (0x4000 + 4 * i)) s = readWindow s i := by
    rw [regOfOffset_window hi]
    rfl
  have hw : hostWrite (regOfOffset (0x4000 + 4 * i)) v s
      = writeIdle s { s with cw := cwSet s.cw i (v.extractLsb' 0 8) } := by
    rw [regOfOffset_window hi, ← BitVec.setWidth_eq_extractLsb' (by decide)]
    rfl
  refine ⟨fun c hb hc => ?_, fun h => ⟨Config.freeByte s.draws, ?_⟩, fun hb => ?_, portCycle_writeAt_busy h4 hl hw⟩
  · exact portCycle_readAt_exact h4 hl (hr.trans (readWindow_written hb hc))
  · rw [portCycle_readAt h4 hl, hostRead, hr, readWindow_free h]
  · exact ⟨_, portCycle_writeAt_idle h4 hl hw hb, rfl, cwGet?_cwSet_same _ _ _, fun a => cwGet?_cwSet_other _ _⟩

/-! ## What a clock edge refuses -/

/-- The accesses within the contract of 20 R54. -/
theorem supportedAccess_iff (p : PortInput) :
    supportedAccess p = true ↔ p.we ≠ p.re ∧ p.size = 0b10#2 ∧ p.addr.toNat % 4 = 0 := by
  simp only [supportedAccess, Bool.and_eq_true, bne_iff_ne, decide_eq_true_iff, and_assoc]

/-- With rst = 0 a single-beat aligned word access of the one host has a next state (20 R54). -/
theorem portCycle_supported {p : PortInput} (hr : p.rst = false) (ha : (p.we || p.re) = true)
    (ho : p.otherHost = false) (hw : supportedAccess p = true) (s : State) :
    portCycle p s = .next (if p.we then hostWrite (regAt p.addr) p.wdata s else hostRead (regAt p.addr) s) := by
  simp only [portCycle, hr, ha, ho, hw, Bool.not_true, Bool.false_eq_true, if_false]
  split <;> rfl

/-- Settles O47: `portCycle`'s tests in their order, one clause per branch. -/
theorem onlyAccessesOutsideTheContractAreRefused : Obligations.OnlyAccessesOutsideTheContractAreRefused := by
  intro s p
  simp only [← supportedAccess_iff, ← Bool.or_eq_true, Bool.not_eq_true]
  refine ⟨fun hr ha => ?_, fun hr ha ho => ?_, fun hr ha ho hw => ?_, fun hr ha ho hw => ?_, fun hr ha => ?_,
    fun hr ha => ?_⟩
  · simp [portCycle, hr, ha]
  · simp [portCycle, hr, ha, ho]
  · simp [portCycle, hr, ha, ho, hw]
  · exact ⟨_, portCycle_supported hr ha ho hw s⟩
  · simp [portCycle, hr, ha]
  · simp [portCycle, hr, ha]

/-! ## The host's turn -/

/-- It is not the engine's turn while idle, nor while latency is left and the host has an access to make. -/
theorem engineTurn_eq_false {s : State} (h : s.busy = false ∨ (s.wait ≠ 0 ∧ ∃ p l, s.bus = .cycle p :: l)) :
    engineTurn s = false := by
  rcases h with hb | ⟨hw, p, l, hl⟩
  · rw [engineTurn, hb, Bool.false_and]
  · simp [engineTurn, hostWaits, hl, hw]

/-- Settles O6: it is the host's turn, and `hostStep` acts on the head of the queue. -/
theorem stepIsTheHostsOtherwise : Obligations.StepIsTheHostsOtherwise := by
  intro s h
  have hstep : step s = hostStep s := by rw [step, engineTurn_eq_false h, if_neg Bool.false_ne_true]
  refine ⟨fun hl => ?_, fun p l hl => ?_, fun l hl => ?_⟩
  · rw [hstep, hostStep, hl]
  · rw [hstep, hostStep, hl]
  · rw [hstep, hostStep, hl]
    rfl

/-! ## Reads -/

/-- A read looks at no earlier read's word. -/
theorem readReg_rdata (r : Reg) (s : State) (w : Word) : readReg r { s with rdata := w } = readReg r s := by
  cases r <;> rfl

/-- While idle the only read that draws is that of an unwritten byte (70 R246). -/
theorem readReg_draws_idle {r : Reg} {s : State} (hb : s.busy = false)
    (hr : ∀ i, r = .cw i → (cwGet? s.cw i).isSome = true) : (readReg r s).2 = s.draws := by
  have hidle (v : Word) : (readIdle s v).2 = s.draws := by rw [readIdle_idle hb]
  cases r with
  | cw i =>
    obtain ⟨c, hc⟩ := Option.isSome_iff_exists.mp (hr i rfl)
    rw [readReg, readWindow_written hb hc]
  | res | bsaLen | bsbLen | mxVer | mxDim => exact hidle _
  | id | rev | paramBs | paramCw | paramEc | ctrl | status | cmd | arg | reserved => rfl

/-- A read that draws nothing gives the same word again (20 R61). -/
theorem hostRead_hostRead {r : Reg} {s : State} (h : (readReg r s).2 = s.draws) :
    hostRead r (hostRead r s) = hostRead r s := by
  have hr : readReg r (hostRead r s) = readReg r s := by rw [hostRead, h, readReg_rdata]
  rw [hostRead, hr]
  rfl

/-- Settles O50: an idle read of a specified value draws nothing, so it is idempotent. -/
theorem readsHaveNoSideEffects : Obligations.ReadsHaveNoSideEffects := by
  refine fun r s => ⟨rfl, fun hb hr => ?_⟩
  have hd := readReg_draws_idle hb hr
  exact ⟨hd, hostRead_hostRead hd⟩

end Sys2Proof.Machine
end

section
/-! PROOFS. The decoder and the encoder (30 R70 to R79): what the opcode map takes and what it refuses, the words of the
commands, and what the engine does with a word. -/

namespace Sys2Proof

open Laws

/-! ## From a command to its word and back -/

/-- The laws of the commands' words, for every command. -/
theorem encoding_statement : ∀ i : Instr, Encoding.Statement i
  | .nop => Encoding.nop
  | .bsClear b => Encoding.bsClear b
  | .bsAppendBit b => Encoding.bsAppendBit b
  | .bsAppendBits b => Encoding.bsAppendBits b
  | .bsAppendBs b => Encoding.bsAppendBs b
  | .bsXor b => Encoding.bsXor b
  | .bsExtract b => Encoding.bsExtract b
  | .bsGetBit b => Encoding.bsGetBit b
  | .bsAppendCw b => Encoding.bsAppendCw b
  | .gfAdd => Encoding.gfAdd
  | .gfMul => Encoding.gfMul
  | .gfInv => Encoding.gfInv
  | .gfExp => Encoding.gfExp
  | .gfLog => Encoding.gfLog
  | .rsGen => Encoding.rsGen
  | .polyMul => Encoding.polyMul
  | .polyMod => Encoding.polyMod
  | .rsEnc => Encoding.rsEnc
  | .bchCode => Encoding.bchCode
  | .fmtInfo => Encoding.fmtInfo
  | .verInfo => Encoding.verInfo
  | .mxClear => Encoding.mxClear
  | .mxSet => Encoding.mxSet
  | .mxGet => Encoding.mxGet
  | .mxPlace b => Encoding.mxPlace b
  | .mxScore => Encoding.mxScore
  | .mxMaskbit => Encoding.mxMaskbit

theorem decodeWord_encode (i : Instr) : decodeWord (encode i) = .ok i := by
  obtain ⟨hdecode, -⟩ := encoding_statement i
  exact hdecode

theorem wellFormed_encode (i : Instr) : CmdWord.wellFormed (encode i) = true := by
  obtain ⟨-, hlegal, -⟩ := encoding_statement i
  exact hlegal

/-! ## From a word to its command and back -/

@[simp] theorem selBit_selBuf (b : Bool) : selBit (selBuf b) = b := by cases b <;> rfl

@[simp] theorem decodePlain_eq_ok {i j : Instr} {b : Bool} : decodePlain i b = .ok j ↔ b = false ∧ i = j := by
  cases b <;> simp [decodePlain]

/-- The row of the opcode map that decodes OP and S is the row of the command's own OP and S (30 R74). The map's last
case, `h_28`, is the reserved opcodes. -/
theorem fields_of_decodeOp {op : Nat} {b : Bool} {i : Instr} (h : decodeOp op b = .ok i) :
    opcode i = op ∧ selOf i = b := by
  unfold decodeOp at h
  split at h
  case h_28 => cases h
  all_goals
    simp only [decodePlain_eq_ok, Except.ok.injEq] at h
    simp [← h, opcode, selOf]

theorem decodeWord_eq_ok {w : Word} {i : Instr} :
    decodeWord w = .ok i ↔ w.toNat / 512 = 0 ∧ decodeOp (w.toNat % 256) (w.getLsbD 8) = .ok i := by
  unfold decodeWord
  split_ifs with h
  · simp [h]
  · simp [not_not.mp h]

/-- A word is its three fields: OP, S and the reserved bits (30 R70). -/
theorem toNat_eq_fields (w : Word) : w.toNat = w.toNat % 256 + 256 * (w.getLsbD 8).toNat + 512 * (w.toNat / 512) := by
  have hs : (w.getLsbD 8).toNat = w.toNat / 2 ^ 8 % 2 := Nat.toNat_testBit w.toNat 8
  omega

theorem encode_of_decodeWord {w : Word} {i : Instr} (h : decodeWord w = .ok i) : encode i = w := by
  obtain ⟨hreserved, hop⟩ := decodeWord_eq_ok.mp h
  obtain ⟨hopcode, hsel⟩ := fields_of_decodeOp hop
  have hw := toNat_eq_fields w
  rw [hreserved, Nat.mul_zero, Nat.add_zero, ← hopcode, ← hsel] at hw
  rw [encode, ← hw, BitVec.ofNat_toNat, BitVec.setWidth_eq]

/-- Settles O2: `encode_of_decodeWord` row by row of the map, `decodeWord_encode` command by command. -/
theorem decodeAndEncodeAgree : Obligations.DecodeAndEncodeAgree :=
  fun _ i => ⟨encode_of_decodeWord, fun h => h ▸ decodeWord_encode i⟩

theorem encode_injective : Function.Injective encode := fun i j h =>
  Except.ok.inj ((decodeWord_encode i).symm.trans (h ▸ decodeWord_encode j))

/-! ## The legal words -/

/-- The 36 commands: those without S in the table's order, then the others with S at both values (30 R74). -/
def commands : List Instr :=
  [.nop, .gfAdd, .gfMul, .gfInv, .gfExp, .gfLog, .rsGen, .polyMul, .polyMod, .rsEnc, .bchCode, .fmtInfo, .verInfo,
    .mxClear, .mxSet, .mxGet, .mxScore, .mxMaskbit]
  ++ [Instr.bsClear, .bsAppendBit, .bsAppendBits, .bsAppendBs, .bsXor, .bsExtract, .bsGetBit, .bsAppendCw,
    .mxPlace].flatMap fun i => [i .A, i .B]

theorem commands_nodup : commands.Nodup := by decide

theorem mem_commands (i : Instr) : i ∈ commands := by
  cases i with
  | bsClear b | bsAppendBit b | bsAppendBits b | bsAppendBs b | bsXor b | bsExtract b | bsGetBit b | bsAppendCw b
  | mxPlace b => cases b <;> decide
  | _ => decide

/-- Settles O3: the words are those of the 36 commands, different because no two commands share a word (O2). -/
theorem legalWordsAreThirtySix : Obligations.LegalWordsAreThirtySix := by
  refine ⟨commands.map encode, rfl, rfl, rfl, rfl, commands_nodup.map encode_injective, fun w => ?_⟩
  simp only [decodeAndEncodeAgree _ _, List.mem_map, mem_commands, true_and]

/-- Settles O1, word by word. -/
theorem wordsFromTheSpecDecode : Obligations.WordsFromTheSpecDecode := by
  unfold Obligations.WordsFromTheSpecDecode
  decide

/-! ## The words that are no command -/

theorem decodeOp_sel {op : Nat} (h : op ∈ selOpcodes) (b : Bool) : ∃ i, decodeOp op b = .ok i := by
  simp only [selOpcodes, List.mem_cons, List.not_mem_nil, or_false] at h
  rcases h with rfl | rfl | rfl | rfl | rfl | rfl | rfl | rfl | rfl <;> exact ⟨_, rfl⟩

theorem decodeOp_plain {op : Nat} (h : op ∈ plainOpcodes) : ∃ i, decodeOp op false = .ok i := by
  simp only [plainOpcodes, List.mem_cons, List.not_mem_nil, or_false] at h
  rcases h with rfl | rfl | rfl | rfl | rfl | rfl | rfl | rfl | rfl | rfl | rfl | rfl | rfl | rfl | rfl | rfl | rfl | rfl
    <;> exact ⟨_, rfl⟩

/-- The three checks of 30 R71 as one: no reserved bit, and an opcode marked "S", or one that is not with S = 0. -/
theorem wellFormed_iff (w : Word) : CmdWord.wellFormed w = true ↔
    w.toNat / 512 = 0 ∧ (CmdWord.op w ∈ selOpcodes ∨ CmdWord.op w ∈ plainOpcodes ∧ w.getLsbD 8 = false) := by
  simp only [CmdWord.wellFormed, CmdWord.reservedZero, CmdWord.opKnown, CmdWord.selAllowed, Bool.and_eq_true,
    Bool.or_eq_true, beq_iff_eq, List.contains_iff_mem, Bool.not_eq_true']
  tauto

/-- The decoder takes exactly the words that pass the three checks (30 R71). -/
theorem decodes_iff_wellFormed (w : Word) : (∃ i, decodeWord w = .ok i) ↔ CmdWord.wellFormed w = true := by
  constructor
  · rintro ⟨i, h⟩
    exact encode_of_decodeWord h ▸ wellFormed_encode i
  · intro h
    obtain ⟨hreserved, hop⟩ := (wellFormed_iff w).mp h
    simp only [decodeWord_eq_ok, hreserved, true_and]
    rcases hop with hsel | ⟨hplain, hs⟩
    · exact decodeOp_sel hsel _
    · exact hs ▸ decodeOp_plain hplain

theorem mem_selOpcodes_iff (op : Nat) : op ∈ selOpcodes ↔ 0x10 ≤ op ∧ op ≤ 0x17 ∨ op = 0x53 := by
  simp only [selOpcodes, List.mem_cons, List.not_mem_nil, or_false]
  omega

theorem mem_plainOpcodes_iff (op : Nat) : op ∈ plainOpcodes ↔
    op = 0x00 ∨ 0x20 ≤ op ∧ op ≤ 0x24 ∨ 0x30 ≤ op ∧ op ≤ 0x33 ∨ 0x40 ≤ op ∧ op ≤ 0x42 ∨ 0x50 ≤ op ∧ op ≤ 0x52
      ∨ 0x54 ≤ op ∧ op ≤ 0x55 := by
  simp only [plainOpcodes, List.mem_cons, List.not_mem_nil, or_false]
  omega

theorem sel_iff (w : Word) : w.getLsbD 8 = true ↔ w.toNat / 2 ^ 8 % 2 = 1 := by
  rw [BitVec.getLsbD, Nat.testBit_eq_decide_div_mod_eq, decide_eq_true_iff]

namespace Machine

open Safety

/-- The engine on a word that decodes (60 R212). -/
theorem engineStep_ok {s : State} {i : Instr} (h : decodeWord s.cmd = .ok i) : engineStep s = exec i s := by
  rw [engineStep, h]

/-- The engine on a word that does not (30 R71, 60 R213). -/
theorem engineStep_error {s : State} {e : DecodeError} (h : decodeWord s.cmd = .error e) :
    engineStep s = .next (errState 0x01#8 s) := by
  rw [engineStep, h]
  rfl

theorem engineStep_of_not_wellFormed {s : State} (h : ¬CmdWord.wellFormed s.cmd = true) :
    engineStep s = .next (errState 0x01#8 s) := by
  cases hd : decodeWord s.cmd with
  | ok i => exact absurd ((decodes_iff_wellFormed s.cmd).mp ⟨i, hd⟩) h
  | error e => exact engineStep_error hd

/-- Settles O4: 30 R75 names the words that fail the checks of 30 R71, by the ranges of the two opcode lists. -/
theorem illegalWordsEndInIllegal : Obligations.IllegalWordsEndInIllegal := by
  intro s
  have hlegal := wellFormed_iff s.cmd
  simp only [mem_selOpcodes_iff, mem_plainOpcodes_iff, CmdWord.op, ← Bool.not_eq_true, sel_iff] at hlegal
  simp only [sel_iff]
  refine ⟨fun hbad => engineStep_of_not_wellFormed ?_, fun hgood => ?_⟩
  · rw [hlegal]
    omega
  · obtain ⟨i, hi⟩ := (decodes_iff_wellFormed s.cmd).mpr (hlegal.mpr (by omega))
    exact ⟨i, hi, fun j hj => Except.ok.inj (hj.symm.trans hi)⟩

end Machine

end Sys2Proof
end

section
/-! PROOFS. The engine's turn (30 R71, 60 R212, R213), and a command statement run from its first ARG write to the end of
its WAIT (30 R77, R78). -/

namespace Sys2Proof.Machine

open Safety

/-! ## The engine's turn -/

/-- The transition is due when the host has no access to make or the latency is over (70 R252, R253). -/
theorem step_of_due {s : State} (hb : s.busy = true)
    (h : s.bus = [] ∨ (∃ l, s.bus = .wait :: l) ∨ s.wait = 0) : step s = engineStep s := by
  have hturn : engineTurn s = true := by
    rcases h with hl | ⟨l, hl⟩ | hw
    · simp [engineTurn, hb, hostWaits, hl]
    · simp [engineTurn, hb, hostWaits, hl]
    · simp [engineTurn, hb, hw]
  rw [step, if_pos hturn]

theorem ofNat_mod_word (w : Nat) : BitVec.ofNat 32 (w % 2 ^ 32) = BitVec.ofNat 32 w :=
  BitVec.eq_of_toNat_eq (by simp)

/-- A word of 32 bits is placed as it stands (30 R70). -/
theorem withFetchWord_eq (s : State) (w : Nat) : s.withFetchWord 32 w = issueNow (BitVec.ofNat 32 w) s := by
  rw [State.withFetchWord, ofNat_mod_word]

theorem decodeTableWord_eq (w : Nat) : decodeTableWord 32 w = (decodeWord (BitVec.ofNat 32 w)).toOption := by
  rw [decodeTableWord, ofNat_mod_word]

/-- Settles O5: the transition is due, and `engineStep` decodes CMD. -/
theorem stepRunsTheDecodedCommand : Obligations.StepRunsTheDecodedCommand := by
  refine ⟨fun s hb h => ?_, fun s w => ?_⟩
  · rw [step_of_due hb h]
    exact ⟨rfl, fun _ => engineStep_ok, fun _ => engineStep_error⟩
  · rw [withFetchWord_eq, decodeTableWord_eq, step_of_due rfl (.inr (.inr rfl))]
    refine ⟨rfl, ?_⟩
    cases hd : decodeWord (BitVec.ofNat 32 w) with
    | ok i =>
      refine ⟨fun j hj => ?_, nofun⟩
      cases hj
      exact engineStep_ok hd
    | error e => exact ⟨nofun, fun _ => engineStep_error hd⟩

/-! ## The host's operations on an idle block -/

section
variable {s : State} {l : List HostOp}

/-- A register write is made at once, for no engine moves while idle (20 R62). -/
theorem step_wr {off : Nat} {v : Word} (hb : s.busy = false) (hl : s.bus = wr off v :: l) (h4 : off % 4 = 0)
    (ho : off < 0x10000) :
    step s = .next (hostWrite (regOfOffset off) v { s with bus := l, wait := s.wait - 1 }) := by
  obtain ⟨-, hcycle, -⟩ := stepIsTheHostsOtherwise s (.inl hb)
  rw [hcycle _ l hl]
  exact portCycle_writeAt h4 ho v _

/-- `ARG[j] <- v` (10 R27). -/
theorem step_wr_arg {j : Nat} {v : Word} (hj : j < 6) (hb : s.busy = false) (hl : s.bus = wr (0x020 + 4 * j) v :: l) :
    step s = .next { s with args := s.args.set ⟨j, hj⟩ v, bus := l, wait := s.wait - 1 } := by
  rw [step_wr hb hl (by omega) (by omega), regOfOffset_arg ⟨j, hj⟩]
  exact congrArg _ (writeIdle_idle hb)

/-- The issue (60 R211). -/
theorem step_wr_cmd {w : Word} (hb : s.busy = false) (hl : s.bus = wr 0x01C w :: l) :
    step s = .next (issue w { s with bus := l, wait := s.wait - 1 }) := by
  rw [step_wr hb hl rfl (by decide)]
  exact congrArg _ (writeIdle_idle hb)

/-- A WAIT on an idle block reads STATUS (30 R78). -/
theorem step_wait (hb : s.busy = false) (hw : s.wait = 0) (hl : s.bus = .wait :: l) :
    step s = .next { s with bus := l, rdata := statusWord s } := by
  obtain ⟨-, -, hwait⟩ := stepIsTheHostsOtherwise s (.inl hb)
  rw [hwait l hl, hw, Nat.zero_sub, ← hw]

end

/-! ## A command statement -/

/-- A command ends idle, with nothing waited for, and leaves the host's queue alone (60 R210, R212, R213). -/
theorem exec_ends_idle (i : Instr) (s : State) :
    ∃ t, exec i s = .next t ∧ t.busy = false ∧ t.wait = 0 ∧ t.bus = s.bus := by
  have hc := completes_exec i s
  generalize exec i s = r at hc
  cases hc with
  | ok u hu => exact ⟨_, rfl, rfl, rfl, hu.bus⟩
  | error c d => exact ⟨_, rfl, rfl, rfl, rfl⟩

theorem run_succ {s t : State} (h : step s = .next t) (k : Nat) : core.run (k + 1) s = core.run k t := by
  have hstep : core.step s = .next t := h
  simp only [Host.Core.run, hstep]

/-- The ARG writes of a command statement from ARGj on, before the other host operations `l` (30 R77). -/
theorem run_wrArgs (l : List HostOp) (k : Nat) (ops : List Word) (j : Nat) (s : State) (hb : s.busy = false)
    (hj : j + ops.length ≤ 6) :
    core.run (ops.length + k) { s with bus := wrArgs j ops ++ l }
      = core.run k { s with args := argsAfter s.args j ops, bus := l, wait := s.wait - ops.length } := by
  induction ops generalizing j s with
  | nil => simp [argsAfter, wrArgs]
  | cons v vs ih =>
    simp only [List.length_cons] at hj ⊢
    have hj6 : j < 6 := by omega
    calc core.run (vs.length + 1 + k) { s with bus := wrArgs j (v :: vs) ++ l }
      _ = core.run (vs.length + k)
            { s with args := s.args.set ⟨j, hj6⟩ v, bus := wrArgs (j + 1) vs ++ l, wait := s.wait - 1 } := by
          rw [Nat.add_right_comm]
          exact run_succ (step_wr_arg (s := { s with bus := wrArgs j (v :: vs) ++ l }) hj6 hb rfl) _
      _ = core.run k
            { s with args := argsAfter s.args j (v :: vs), bus := l, wait := s.wait - (vs.length + 1) } := by
          rw [argsAfter, dif_pos hj6, Nat.add_comm vs.length 1, ← Nat.sub_sub]
          exact ih (j + 1) { s with args := s.args.set ⟨j, hj6⟩ v, wait := s.wait - 1 } hb (by omega)

theorem operandCount_le (i : Instr) : operandCount i ≤ 6 := by cases i <;> simp [operandCount]

/-- The end of a command statement takes three steps: the issue, the engine's transition under the WAIT, and the STATUS
read (30 R77, R78). -/
theorem run_issue_wait (i : Instr) {s : State} (hb : s.busy = false) (hl : s.bus = [wr 0x01C (encode i), .wait]) :
    ∃ t, exec i (issue (encode i) { s with bus := [.wait], wait := s.wait - 1 }) = .next t
      ∧ core.run 3 s = .next { t with bus := [], rdata := statusWord t } := by
  let u := issue (encode i) { s with bus := [.wait], wait := s.wait - 1 }
  obtain ⟨t, hexec, hidle, hwait, hbus⟩ := exec_ends_idle i u
  have hengine : step u = .next t := by
    rw [step_of_due rfl (.inr (.inl ⟨[], rfl⟩)), engineStep_ok (decodeWord_encode i), hexec]
  refine ⟨t, hexec, ?_⟩
  calc core.run 3 s
    _ = core.run 2 u := run_succ (step_wr_cmd hb hl) 2
    _ = core.run 1 t := run_succ hengine 1
    _ = .next { t with bus := [], rdata := statusWord t } := run_succ (step_wait hidle hwait hbus) 0

/-- Settles O59: the ARG writes (`run_wrArgs`), then the issue and the WAIT (`run_issue_wait`). -/
theorem commandStatementRuns : Obligations.CommandStatementRuns := by
  intro s i ops hb hops
  let u : State := { s with
    args := argsAfter s.args 0 ops, bus := [wr 0x01C (encode i), .wait], wait := s.wait - ops.length }
  obtain ⟨t, hexec, hrun⟩ := run_issue_wait i (s := u) hb rfl
  have hargs : 0 + ops.length ≤ 6 := by
    rw [Nat.zero_add, hops]
    exact operandCount_le i
  refine ⟨t, hexec, ?_⟩
  rw [← hrun, commandStatement, issueStatement, List.append_assoc]
  exact run_wrArgs _ 3 ops 0 s hb hargs

end Sys2Proof.Machine
end

section
/-! PROOFS. The control command (40 R90), and what the host sees of a success completion (10 R25, 60 R212, R220). -/

namespace Sys2Proof.Machine

open Safety

/-- A completion raises irq exactly when IE is set (60 R220). -/
theorem irq_okState (s : State) : irq (okState s) = s.ie := Bool.true_and s.ie

/-- A success completion shows DONE, and the OVR it met (10 R25, 60 R212). -/
theorem statusWord_okState (s : State) : statusWord (okState s) = BitVec.ofNat 32 (2 + 8 * s.ovr.toNat) := rfl

/-- The word of NOP; with S = 1 it is refused (30 R71). -/
theorem plainWord_nop : PlainWord 0x00 .nop := ⟨rfl, .selOnPlainOp, rfl⟩

/-- NOP is the success completion of the state it met (40 R90). -/
theorem exec_nop (s : State) : exec .nop s = .next (okState s) := rfl

/-- Settles O7: NOP's word, its completion, and what irq and STATUS show of a success completion. -/
theorem nopCompletes : Obligations.NopCompletes := by
  refine ⟨plainWord_nop, fun s => ⟨exec_nop s, irq_okState s, fun hovr => ?_⟩⟩
  rw [statusWord_okState, hovr]
  rfl

end Sys2Proof.Machine
end

section
/-! PROOFS. The bitstream unit (41): each command as its outcomes in the order of its checks, and the bit sequences it
appends, adds and stores written index by index. -/

namespace Sys2Proof.Machine

open Safety

/-! ## Words and regions -/

/-- The words of an opcode marked "S" are those of its commands (30 R70, R74). -/
theorem selWords_of_encode {op : Nat} {i : Buf → Instr} (hA : encode (i .A) = BitVec.ofNat 32 op)
    (hB : encode (i .B) = BitVec.ofNat 32 (op + 256)) : SelWords op i :=
  ⟨hA ▸ decodeWord_encode (i .A), hB ▸ decodeWord_encode (i .B)⟩

/-- The check of 20 R58 fails exactly on the regions out of bounds. -/
theorem inCw_eq_false_iff {off n : Nat} : inCw off n = false ↔ ¬InCw off n := decide_eq_false_iff_not

/-- The check of 20 R58 passes exactly on the regions in bounds. -/
theorem inCw_ne_false_iff {off n : Nat} : ¬inCw off n = false ↔ InCw off n := inCw_eq_false_iff.not_left

/-- A store of `v` at `off` writes those bytes and no others. -/
theorem stores_of_cw_eq {s t : State} {off : Nat} {v : List Byte} (h : t.cw = writeBytes s.cw off v) :
    Stores s t off v := by
  unfold Stores
  rw [h]
  exact ⟨cwGet?_writeBytes_same v s.cw off, cwGet?_writeBytes_other v s.cw off⟩

/-- `MemRead` gives what a read of its region may give (70 R246). -/
theorem readsRegion_readBytes (s : State) (off n d : Nat) : ReadsRegion s off n (readBytes s.cw off n d).1 :=
  ⟨readBytes_length s.cw off n d, readBytes_written s.cw off n d⟩

/-! ## Bit sequences -/

/-- The low n bits of a word, most significant first, index by index (41 R103). -/
theorem bitsMsb_toNat {w : Nat} (v : BitVec w) (n : Nat) :
    bitsMsb v.toNat n = (List.range n).map fun i => v.getLsbD (n - 1 - i) := by
  refine List.ext_getElem? fun i => ?_
  by_cases hi : i < n
  · rw [bitsMsb_getElem? _ _ _ hi, List.getElem?_map, List.getElem?_range hi]
    rfl
  · rw [List.getElem?_eq_none (by simpa using hi), List.getElem?_eq_none (by simpa using hi)]

/-- The bits of bytes, each byte's bit 7 first (41 R108). -/
theorem bytesBits_eq_flatMap (v : List Byte) :
    bytesBits v = v.flatMap fun c => (List.range 8).map fun u => c.getLsbD (7 - u) := by
  simp only [bytesBits, bitsMsb_toNat, Nat.reduceSub]

theorem bitsValue_append_singleton (l : Bits) (b : Bool) : bitsValue (l ++ [b]) = 2 * bitsValue l + b.toNat := by
  simp [bitsValue]

/-- The value of n bits as a sum of powers of two, the first bit having the greatest (20 R57). -/
theorem bitsValue_map_range (f : Nat → Bool) (n : Nat) :
    bitsValue ((List.range n).map f) = ((List.range n).map fun u => (f u).toNat * 2 ^ (n - 1 - u)).sum := by
  induction n with
  | zero => rfl
  | succ n ih =>
    have hdouble : ∀ u ∈ List.range n, 2 * ((f u).toNat * 2 ^ (n - 1 - u)) = (f u).toNat * 2 ^ (n - u) := by
      intro u hu
      have hexp : n - u = n - 1 - u + 1 := by
        have := List.mem_range.mp hu
        omega
      rw [hexp, pow_succ]
      ring
    simp only [List.range_succ, List.map_append, List.map_singleton, bitsValue_append_singleton, ih, List.sum_append,
      List.sum_singleton, Nat.add_sub_cancel, Nat.sub_self, pow_zero, mul_one, ← List.sum_map_mul_left,
      List.map_congr_left hdouble]

/-- The n bytes from bit 8 k on, byte j made of the bits from 8 (k + j) on (41 R106). -/
theorem extractBytes_drop (n k : Nat) (l : Bits) :
    extractBytes n (l.drop (8 * k)) = (List.range n).map fun j => BitVec.ofNat 8
      (((List.range 8).map fun u => (l.getD (8 * (k + j) + u) false).toNat * 2 ^ (7 - u)).sum) := by
  refine List.ext_getElem? fun j => ?_
  by_cases hj : j < n
  · have hbit : ∀ u, (l.drop (8 * k)).getD (8 * j + u) false = l.getD (8 * (k + j) + u) false := fun u => by
      simp only [List.getD_eq_getElem?_getD, List.getElem?_drop, Nat.mul_add, Nat.add_assoc]
    rw [extractBytes_getElem? _ _ _ hj, List.getElem?_map, List.getElem?_range hj]
    simp only [hbit, bitsValue_map_range, Option.map_some, Nat.reduceSub]
  · rw [List.getElem?_eq_none (by simpa using hj), List.getElem?_eq_none (by simpa using hj)]

/-- The sum of two equally long sequences, index by index (41 R105). -/
theorem zipWith_xor_eq_map {l m : Bits} (h : l.length = m.length) :
    List.zipWith xor l m = (List.range l.length).map fun i => xor (l.getD i false) (m.getD i false) := by
  refine List.ext_getElem (by simp [h]) fun i hl _ => ?_
  obtain ⟨hil, him⟩ : i < l.length ∧ i < m.length := by simpa using hl
  simp [hil, him]

/-- A bit as a result word (41 R107). -/
theorem resWord_toNat_bool (v : Bool) : resWord v.toNat = if v then 1#32 else 0#32 := by cases v <;> rfl

/-! ## The commands: the checks in their order, each with its completion (60 R212 to R214) -/

section
variable (b : Buf) (s : State)

theorem exec_bsClear : exec (.bsClear b) s = .next (okState (setBs s b [])) := rfl

theorem exec_bsAppendBit : exec (.bsAppendBit b) s =
    if arg s 0 > 1 then .next (errState 0x02#8 s)
    else if (bs s b).length + 1 > 32768 then .next (errState 0x03#8 s)
    else .next (okState (setBs s b (bs s b ++ [decide (arg s 0 = 1)]))) := rfl

theorem exec_bsAppendBits : exec (.bsAppendBits b) s =
    if arg s 1 > 32 then .next (errState 0x02#8 s)
    else if (bs s b).length + arg s 1 > 32768 then .next (errState 0x03#8 s)
    else .next (okState (setBs s b (bs s b ++ bitsMsb s.args.arg0.toNat (arg s 1)))) := rfl

theorem exec_bsAppendBs : exec (.bsAppendBs b) s =
    if (bs s b).length + (bs s b.other).length > 32768 then .next (errState 0x03#8 s)
    else .next (okState (setBs s b (bs s b ++ bs s b.other))) := rfl

theorem exec_bsXor : exec (.bsXor b) s =
    if (bs s b).length ≠ (bs s b.other).length then .next (errState 0x04#8 s)
    else .next (okState (setBs s b (List.zipWith xor (bs s b) (bs s b.other)))) := rfl

theorem exec_bsExtract : exec (.bsExtract b) s =
    if inCw (arg s 2) (arg s 1) = false then .next (errState 0x0C#8 s)
    else .next (okState { s with
      cw := writeBytes s.cw (arg s 2) (extractBytes (arg s 1) ((bs s b).drop (8 * arg s 0))) }) := rfl

theorem exec_bsGetBit : exec (.bsGetBit b) s =
    if arg s 0 ≥ (bs s b).length then .next (errState 0x05#8 s)
    else .next (okState { s with
      res := { s.res with res0 := resWord ((bs s b).getD (arg s 0) false).toNat } }) := rfl

theorem exec_bsAppendCw : exec (.bsAppendCw b) s =
    if inCw (arg s 0) (arg s 1) = false then .next (errState 0x0C#8 s)
    else if (bs s b).length + 8 * arg s 1 > 32768 then .next (errState 0x03#8 s)
    else .next (okState { setBs s b (bs s b ++ bytesBits (readBytes s.cw (arg s 0) (arg s 1) s.draws).1) with
      draws := (readBytes s.cw (arg s 0) (arg s 1) s.draws).2 }) := rfl

end

/-! ## The obligations -/

/-- Settles O8, by the branches of `exec_bsAppendBit`. -/
theorem bsClearAndAppendBit : Obligations.BsClearAndAppendBit := by
  refine ⟨selWords_of_encode rfl rfl, selWords_of_encode rfl rfl, fun b s => ⟨exec_bsClear b s, ?_⟩⟩
  rw [exec_bsAppendBit]
  refine ⟨fun h0 hl => ?_, fun h1 hl => ?_, fun h => if_pos h, fun h hl => ?_⟩
  · rw [if_neg (by omega), if_neg (by omega), h0]
    rfl
  · rw [if_neg (by omega), if_neg (by omega), h1]
    rfl
  · rw [if_neg (by omega), if_pos hl]

/-- Settles O9, by the branches of `exec_bsAppendBits`; `bitsMsb_toNat` gives the appended bits. -/
theorem bsAppendBitsMsbFirst : Obligations.BsAppendBitsMsbFirst := by
  refine ⟨selWords_of_encode rfl rfl, fun b s => ?_⟩
  rw [exec_bsAppendBits]
  refine ⟨fun hn hl => ?_, fun hn => if_pos hn, fun hn hl => ?_⟩
  · rw [if_neg (by omega), if_neg (by omega), bitsMsb_toNat]
  · rw [if_neg (by omega), if_pos hl]

/-- Settles O10, by the branches of `exec_bsAppendBs` and `exec_bsXor`; `zipWith_xor_eq_map` gives the sum. -/
theorem bsAppendBsAndXor : Obligations.BsAppendBsAndXor := by
  refine ⟨selWords_of_encode rfl rfl, selWords_of_encode rfl rfl, fun b s => ?_⟩
  rw [exec_bsAppendBs, exec_bsXor]
  refine ⟨fun hl => if_neg (by omega), fun hl => if_pos hl, fun h => ?_, fun h => if_pos h⟩
  rw [if_neg (not_not.mpr h), zipWith_xor_eq_map h]

/-- Settles O11, by the branches of `exec_bsExtract`; `extractBytes_drop` gives the bytes stored. -/
theorem bsExtractStoresBytes : Obligations.BsExtractStoresBytes := by
  refine ⟨selWords_of_encode rfl rfl, fun b s => ?_⟩
  rw [exec_bsExtract, extractBytes_drop]
  exact ⟨fun hb => ⟨_, if_neg (inCw_ne_false_iff.mpr hb), rfl, stores_of_cw_eq rfl⟩,
    fun hb => if_pos (inCw_eq_false_iff.mpr hb)⟩

/-- Settles O12, by the branches of `exec_bsGetBit`: a bit is there exactly at an index below the length. -/
theorem bsGetBitReads : Obligations.BsGetBitReads := by
  refine ⟨selWords_of_encode rfl rfl, fun b s => ?_⟩
  rw [exec_bsGetBit]
  refine ⟨fun v hv => ?_, fun hi => if_pos hi⟩
  obtain ⟨hi, -⟩ := List.getElem?_eq_some_iff.mp hv
  rw [if_neg (Nat.not_le.mpr hi), List.getD_eq_getElem?_getD, hv, Option.getD_some, resWord_toNat_bool]

/-- Settles O13, by the branches of `exec_bsAppendCw`; the bytes and the draws are those of `MemRead`. -/
theorem bsAppendCwAppendsBytes : Obligations.BsAppendCwAppendsBytes := by
  refine ⟨selWords_of_encode rfl rfl, fun b s => ?_⟩
  rw [exec_bsAppendCw]
  refine ⟨fun hb hl => ⟨_, _, readsRegion_readBytes s _ _ s.draws, readBytes_draws_of_written _ _ _ _, ?_⟩,
    fun hb => if_pos (inCw_eq_false_iff.mpr hb), fun hb hl => ?_⟩
  · rw [if_neg (inCw_ne_false_iff.mpr hb), if_neg (by omega), bytesBits_eq_flatMap]
  · rw [if_neg (inCw_ne_false_iff.mpr hb), if_pos hl]

end Sys2Proof.Machine
end

section
/-! PROOFS. The carry-less product (44 R160) as an operation on the integers' bits: linear in its first operand, a shift for
a power of two; and the congruence modulo a polynomial over GF(2) that it gives (42 R129). -/

namespace Sys2Proof.Machine

open Safety

/-! ## The carry-less product -/

/-- The loop of `carryless` over the lowest `n` bits of `q`. -/
def carrylessLow (n q p : Nat) : Nat :=
  (List.range n).foldl (fun acc i => if q.testBit i then acc ^^^ (p <<< i) else acc) 0

theorem carryless_eq_carrylessLow_bitlen (q p : Nat) : carryless q p = carrylessLow (bitlen q) q p := rfl

@[simp] theorem carrylessLow_zero (q p : Nat) : carrylessLow 0 q p = 0 := rfl

theorem carrylessLow_succ (n q p : Nat) :
    carrylessLow (n + 1) q p = carrylessLow n q p ^^^ if q.testBit n then p <<< n else 0 := by
  simp only [carrylessLow, List.range_succ, List.foldl_append, List.foldl_cons, List.foldl_nil]
  split_ifs
  · rfl
  · exact (Nat.xor_zero _).symm

theorem bitlen_le_iff {q n : Nat} : bitlen q ≤ n ↔ q < 2 ^ n := by
  unfold bitlen
  split_ifs with h
  · simp [h]
  · exact Nat.log2_lt h

/-- Any number of bits that holds `q` gives the whole product. -/
theorem carrylessLow_eq_carryless {n q p : Nat} (h : q < 2 ^ n) : carrylessLow n q p = carryless q p := by
  rw [carryless_eq_carrylessLow_bitlen]
  induction n, bitlen_le_iff.mpr h using Nat.le_induction with
  | base => rfl
  | succ m hm ih =>
    have hq : q < 2 ^ m := bitlen_le_iff.mp hm
    rw [carrylessLow_succ, ih hq, Nat.testBit_lt_two_pow hq, if_neg Bool.false_ne_true, Nat.xor_zero]

theorem carrylessLow_xor_left (n q r p : Nat) :
    carrylessLow n (q ^^^ r) p = carrylessLow n q p ^^^ carrylessLow n r p := by
  induction n with
  | zero => simp
  | succ n ih =>
    simp only [carrylessLow_succ, ih, Nat.testBit_xor]
    cases q.testBit n <;> cases r.testBit n <;> simp [Nat.xor_assoc, Nat.xor_left_comm, Nat.xor_comm]

theorem carrylessLow_shiftLeft_one (n q p : Nat) : carrylessLow (n + 1) (q <<< 1) p = carrylessLow n q p <<< 1 := by
  induction n with
  | zero => simp [carrylessLow_succ]
  | succ n ih =>
    rw [carrylessLow_succ, ih, carrylessLow_succ, Nat.shiftLeft_xor_distrib]
    cases h : q.testBit n <;> simp [Nat.testBit_shiftLeft, h, Nat.shiftLeft_add]

@[simp] theorem carryless_zero_left (p : Nat) : carryless 0 p = 0 := rfl

/-- The carry-less product is linear over GF(2) in its first operand. -/
theorem carryless_xor_left (q r p : Nat) : carryless (q ^^^ r) p = carryless q p ^^^ carryless r p := by
  have hq : q < 2 ^ (q + r) := (Nat.le_add_right q r).trans_lt Nat.lt_two_pow_self
  have hr : r < 2 ^ (q + r) := (Nat.le_add_left r q).trans_lt Nat.lt_two_pow_self
  rw [← carrylessLow_eq_carryless hq, ← carrylessLow_eq_carryless hr,
    ← carrylessLow_eq_carryless (Nat.xor_lt_two_pow hq hr), carrylessLow_xor_left]

theorem carryless_shiftLeft_one (q p : Nat) : carryless (q <<< 1) p = carryless q p <<< 1 := by
  have hq : q < 2 ^ q := Nat.lt_two_pow_self
  have hshift : q <<< 1 < 2 ^ (q + 1) := by
    rw [Nat.shiftLeft_eq, pow_succ]
    omega
  rw [← carrylessLow_eq_carryless hq, ← carrylessLow_eq_carryless hshift, carrylessLow_shiftLeft_one]

@[simp] theorem carryless_one_left (p : Nat) : carryless 1 p = p := by
  rw [← carrylessLow_eq_carryless (n := 1) (by decide), carrylessLow_succ]
  simp

/-- The product with x^i is a shift. -/
theorem carryless_two_pow_left (i p : Nat) : carryless (2 ^ i) p = p <<< i := by
  induction i with
  | zero => simp
  | succ i ih =>
    have hpow : 2 ^ (i + 1) = (2 ^ i) <<< 1 := by rw [Nat.shiftLeft_eq, pow_succ, pow_one]
    rw [hpow, carryless_shiftLeft_one, ih, Nat.shiftLeft_add]

/-! ## Congruence modulo a polynomial over GF(2) -/

/-- `m` and `n`, as polynomials over GF(2), differ by a multiple of `p`. -/
def CarrylessModEq (p m n : Nat) : Prop := ∃ q, m = carryless q p ^^^ n

theorem CarrylessModEq.refl (p m : Nat) : CarrylessModEq p m m := ⟨0, by simp⟩

theorem CarrylessModEq.trans {p l m n : Nat} : CarrylessModEq p l m → CarrylessModEq p m n → CarrylessModEq p l n := by
  rintro ⟨q, rfl⟩ ⟨r, rfl⟩
  exact ⟨q ^^^ r, by rw [carryless_xor_left, Nat.xor_assoc]⟩

theorem CarrylessModEq.xor {p m n m' n' : Nat} :
    CarrylessModEq p m n → CarrylessModEq p m' n' → CarrylessModEq p (m ^^^ m') (n ^^^ n') := by
  rintro ⟨q, rfl⟩ ⟨r, rfl⟩
  exact ⟨q ^^^ r, by rw [carryless_xor_left, Nat.xor_assoc, Nat.xor_assoc, Nat.xor_left_comm n]⟩

theorem CarrylessModEq.shiftLeft_one {p m n : Nat} : CarrylessModEq p m n → CarrylessModEq p (m <<< 1) (n <<< 1) := by
  rintro ⟨q, rfl⟩
  exact ⟨q <<< 1, by rw [carryless_shiftLeft_one, Nat.shiftLeft_xor_distrib]⟩

/-- Doubling with the reduction of 42 R120 is doubling modulo 0x11D. -/
theorem carrylessModEq_timesTwo (t : Nat) : CarrylessModEq 0x11D (t <<< 1) (timesTwo t) := by
  have hdouble : t <<< 1 = 2 * t := by rw [Nat.shiftLeft_eq, pow_one, Nat.mul_comm]
  rw [hdouble]
  unfold timesTwo
  split_ifs
  · exact ⟨1, by rw [carryless_one_left, Nat.xor_comm, Nat.xor_xor_cancel_right]⟩
  · exact .refl _ _

end Sys2Proof.Machine
end

section
/-! PROOFS. The field GF(256) (42 R120 to R129). Everything follows from two views of multiplication by a non-zero element:
through the tables it adds logarithms, and it is `gfdouble`, the linear step of the tables' recurrence, repeated. -/

namespace Sys2Proof.Machine

open Safety

/-! ## The tables -/

theorem gfexp_last : gfexp 255 = 1#8 := by decide

theorem gflog_one : gflog 1#8 = 0 := by decide

/-- The recurrence of 42 R120. -/
theorem gfexp_succ {i : Nat} (h : i < 255) : (gfexp (i + 1)).toNat = timesTwo (gfexp i).toNat := gfexp_succ_fin ⟨i, h⟩

/-- Settles O27: the recurrence and the inverse are those of `Laws/Gf`. -/
theorem expAndLogTables : Obligations.ExpAndLogTables := by
  refine ⟨gfexp_zero, gfexp_last, fun i hi => gfexp_succ hi, fun i hi => gfexp_ne_zero (by omega),
    fun a ha => ⟨gflog_lt ha, gfexp_gflog ha, fun i hi hexp => ?_⟩⟩
  rw [← hexp, gflog_gfexp hi]

/-! ## Logarithms -/

/-- LOG of a product is the sum of the LOGs modulo 255 (42 R129). -/
theorem gflog_gfmul {a b : Byte} (ha : a ≠ 0#8) (hb : b ≠ 0#8) : gflog (gfmul a b) = (gflog a + gflog b) % 255 := by
  rw [gfmul_of_ne_zero ha hb, gflog_gfexp (Nat.mod_lt _ (by decide))]

theorem gfmul_comm (a b : Byte) : gfmul a b = gfmul b a := by
  simp only [gfmul, or_comm, Nat.add_comm]

theorem gfmul_one_right (a : Byte) : gfmul a 1#8 = a := by
  by_cases ha : a = 0#8
  · rw [ha, gfmul_zero_left]
  · rw [gfmul_of_ne_zero ha (by decide), gflog_one, Nat.add_zero, Nat.mod_eq_of_lt (gflog_lt ha), gfexp_gflog ha]

theorem gfmul_assoc (a b c : Byte) : gfmul (gfmul a b) c = gfmul a (gfmul b c) := by
  by_cases ha : a = 0#8
  · simp [ha]
  by_cases hb : b = 0#8
  · simp [hb]
  by_cases hc : c = 0#8
  · simp [hc]
  rw [gfmul_of_ne_zero (gfmul_ne_zero ha hb) hc, gfmul_of_ne_zero ha (gfmul_ne_zero hb hc), gflog_gfmul ha hb,
    gflog_gfmul hb hc, Nat.mod_add_mod, Nat.add_mod_mod, Nat.add_assoc]

/-- `gfinv` is the multiplicative inverse (42 R123, R129). -/
theorem gfmul_gfinv {a : Byte} (ha : a ≠ 0#8) : gfmul a (gfinv a) = 1#8 := by
  have hlt := gflog_lt ha
  have hinv : gflog (gfinv a) = (255 - gflog a) % 255 := gflog_gfexp (Nat.mod_lt _ (by decide))
  have hne : gfinv a ≠ 0#8 := gfexp_ne_zero (by omega)
  have hsum : (gflog a + gflog (gfinv a)) % 255 = 0 := by omega
  rw [gfmul_of_ne_zero ha hne, hsum, gfexp_zero]

/-! ## Multiplication as repeated doubling -/

/-- Multiplication by 2: one step of the recurrence of 42 R120, on bytes. -/
def gfdouble (a : Byte) : Byte := (a <<< 1) ^^^ if a.msb then 0x1D#8 else 0#8

theorem gfdouble_toNat_fin : ∀ i : Fin 256, (gfdouble (BitVec.ofFin i)).toNat = timesTwo i := by decide +kernel

theorem gfdouble_toNat (a : Byte) : (gfdouble a).toNat = timesTwo a.toNat := gfdouble_toNat_fin a.toFin

theorem gfdouble_xor : Function.Semiconj₂ gfdouble (· ^^^ ·) (· ^^^ ·) := by
  intro a b
  have hreduce : ∀ x y : Bool, (if x ^^ y then 0x1D#8 else 0#8)
      = (if x then 0x1D#8 else 0#8) ^^^ (if y then 0x1D#8 else 0#8) := by decide
  simp only [gfdouble, BitVec.shiftLeft_xor_distrib, BitVec.msb_xor, hreduce]
  ac_rfl

theorem gfdouble_gfexp {j : Nat} (h : j < 255) : gfdouble (gfexp j) = gfexp ((j + 1) % 255) := by
  have hstep : gfdouble (gfexp j) = gfexp (j + 1) := by
    rw [← BitVec.toNat_inj, gfdouble_toNat, gfexp_succ h]
  rw [hstep]
  rcases Nat.lt_or_ge (j + 1) 255 with hlt | hge
  · rw [Nat.mod_eq_of_lt hlt]
  · rw [show j + 1 = 255 by omega, gfexp_last, Nat.mod_self, gfexp_zero]

theorem iterate_gfdouble_gfexp {i j : Nat} (h : j < 255) : gfdouble^[i] (gfexp j) = gfexp ((i + j) % 255) := by
  induction i with
  | zero => rw [Nat.zero_add, Nat.mod_eq_of_lt h, Function.iterate_zero_apply]
  | succ i ih =>
    rw [Function.iterate_succ_apply', ih, gfdouble_gfexp (Nat.mod_lt _ (by decide)), Nat.mod_add_mod,
      Nat.add_right_comm]

/-- The product with EXP[i] doubles i times. -/
theorem gfmul_gfexp {i : Nat} (h : i < 255) (b : Byte) : gfmul (gfexp i) b = gfdouble^[i] b := by
  by_cases hb : b = 0#8
  · rw [hb, gfmul_zero_right, Function.iterate_fixed (by decide)]
  · rw [gfmul_of_ne_zero (gfexp_ne_zero (by omega)) hb, gflog_gfexp h, ← iterate_gfdouble_gfexp (gflog_lt hb),
      gfexp_gflog hb]

theorem gfmul_xor_right (a b c : Byte) : gfmul a (b ^^^ c) = gfmul a b ^^^ gfmul a c := by
  by_cases ha : a = 0#8
  · simp [ha]
  · rw [← gfexp_gflog ha]
    simp only [gfmul_gfexp (gflog_lt ha)]
    exact gfdouble_xor.iterate (gflog a) b c

theorem gfmul_xor_left (a b c : Byte) : gfmul (a ^^^ b) c = gfmul a c ^^^ gfmul b c := by
  simp only [gfmul_comm _ c, gfmul_xor_right]

/-! ## The product is the carry-less one modulo 0x11D -/

theorem carrylessModEq_iterate_gfdouble (i : Nat) (b : Byte) :
    CarrylessModEq 0x11D (b.toNat <<< i) (gfdouble^[i] b).toNat := by
  induction i with
  | zero => exact .refl _ _
  | succ i ih =>
    rw [Nat.shiftLeft_add, Function.iterate_succ_apply', gfdouble_toNat]
    exact ih.shiftLeft_one.trans (carrylessModEq_timesTwo _)

/-- The powers of x below x^8 are the first entries of EXP. -/
theorem gfexp_toNat_of_lt_eight {i : Nat} (h : i < 8) : (gfexp i).toNat = 2 ^ i := by
  interval_cases i <;> rfl

/-- A byte is a sum of powers of x below x^8: what holds of those, of 0 and of sums holds of every byte. -/
theorem byte_xor_induction {P : Byte → Prop} (zero : P 0#8) (xor : ∀ a b, P a → P b → P (a ^^^ b))
    (pow : ∀ i < 8, P (gfexp i)) (a : Byte) : P a := by
  have hbits : ∀ n ≤ 8, ∀ a : Byte, a.toNat < 2 ^ n → P a := by
    intro n
    induction n with
    | zero =>
      intro _ a ha
      have hzero : a = 0#8 := BitVec.eq_of_toNat_eq (Nat.lt_one_iff.mp ha)
      exact hzero ▸ zero
    | succ n ih =>
      intro hn a ha
      rcases Nat.lt_or_ge a.toNat (2 ^ n) with hlow | hhigh
      · exact ih (by omega) a hlow
      · have htop : a.toNat / 2 ^ n = 1 := Nat.div_eq_of_lt_le (by omega) (by omega)
        have hlow : (a ^^^ gfexp n).toNat < 2 ^ n := by
          refine Nat.lt_of_div_eq_zero (Nat.two_pow_pos n) ?_
          rw [BitVec.toNat_xor, gfexp_toNat_of_lt_eight (by omega), Nat.xor_div_two_pow, htop,
            Nat.div_self (Nat.two_pow_pos n), Nat.xor_self]
        have hsplit : a = (a ^^^ gfexp n) ^^^ gfexp n := (xor_cancel_right a (gfexp n)).symm
        exact hsplit ▸ xor _ _ (ih (by omega) _ hlow) (pow n (by omega))
  exact hbits 8 le_rfl a a.isLt

/-- `gfmul` is the carry-less product reduced modulo 0x11D (42 R129). -/
theorem carrylessModEq_gfmul (a b : Byte) : CarrylessModEq 0x11D (carryless a.toNat b.toNat) (gfmul a b).toNat := by
  induction a using byte_xor_induction with
  | zero => rw [gfmul_zero_left]; exact .refl _ _
  | xor a a' ih ih' =>
    rw [BitVec.toNat_xor, carryless_xor_left, gfmul_xor_left, BitVec.toNat_xor]
    exact ih.xor ih'
  | pow i hi =>
    rw [gfexp_toNat_of_lt_eight hi, carryless_two_pow_left, gfmul_gfexp (by omega)]
    exact carrylessModEq_iterate_gfdouble i b

/-- Settles O28, from the laws above. -/
theorem fieldLaws : Obligations.FieldLaws := fun a b c =>
  ⟨rfl, carrylessModEq_gfmul a b, gfmul_comm a b, gfmul_assoc a b c, gfmul_one_right a, gfmul_zero_right a,
    gfmul_xor_right a b c, gfmul_gfinv, gflog_gfmul⟩

end Sys2Proof.Machine
end

section
/-! PROOFS. The commands of the field unit (42 R124 to R128). -/

namespace Sys2Proof.Machine

open Safety

/-! ## The commands: the checks in their order, each with its completion (60 R212 to R214) -/

section
variable (s : State)

theorem exec_gfAdd : exec .gfAdd s =
    if arg s 0 > 255 ∨ arg s 1 > 255 then .next (errState 0x02#8 s)
    else .next (okState { s with
      res := { s.res with res0 := resWord (gfadd (argByte s 0) (argByte s 1)).toNat } }) := rfl

theorem exec_gfMul : exec .gfMul s =
    if arg s 0 > 255 ∨ arg s 1 > 255 then .next (errState 0x02#8 s)
    else .next (okState { s with
      res := { s.res with res0 := resWord (gfmul (argByte s 0) (argByte s 1)).toNat } }) := rfl

theorem exec_gfInv : exec .gfInv s =
    if arg s 0 > 255 then .next (errState 0x02#8 s)
    else if arg s 0 = 0 then .next (errState 0x06#8 s)
    else .next (okState { s with res := { s.res with res0 := resWord (gfinv (argByte s 0)).toNat } }) := rfl

theorem exec_gfExp : exec .gfExp s =
    if arg s 0 > 255 then .next (errState 0x02#8 s)
    else .next (okState { s with res := { s.res with res0 := resWord (gfexp (arg s 0)).toNat } }) := rfl

theorem exec_gfLog : exec .gfLog s =
    if arg s 0 > 255 then .next (errState 0x02#8 s)
    else if arg s 0 = 0 then .next (errState 0x07#8 s)
    else .next (okState { s with res := { s.res with res0 := resWord (gflog (argByte s 0)) } }) := rfl

end

/-! ## Operands and results -/

/-- A byte as a result word (30 R73). -/
theorem resWord_toNat_byte (v : Byte) : resWord v.toNat = v.setWidth 32 := BitVec.ofNat_toNat 32 v

theorem argByte_toNat {s : State} {i : Fin 6} (h : arg s i ≤ 255) : (argByte s i).toNat = arg s i := by
  rw [argByte, BitVec.toNat_ofNat, Nat.mod_eq_of_lt (by omega)]

theorem argByte_eq_zero_iff {s : State} {i : Fin 6} (h : arg s i ≤ 255) : argByte s i = 0#8 ↔ arg s i = 0 := by
  rw [← BitVec.toNat_inj, argByte_toNat h, BitVec.toNat_zero]

theorem resWord_gfadd {s : State} {i j : Fin 6} (hi : arg s i ≤ 255) (hj : arg s j ≤ 255) :
    resWord (gfadd (argByte s i) (argByte s j)).toNat = BitVec.ofNat 32 (arg s i ^^^ arg s j) := by
  rw [gfadd, BitVec.toNat_xor, argByte_toNat hi, argByte_toNat hj, resWord]

theorem resWord_gfmul {s : State} {i j : Fin 6} (hi : arg s i ≤ 255) (hj : arg s j ≤ 255) :
    resWord (gfmul (argByte s i) (argByte s j)).toNat = if arg s i = 0 ∨ arg s j = 0 then 0#32
      else (gfexp ((gflog (argByte s i) + gflog (argByte s j)) % 255)).setWidth 32 := by
  rw [resWord_toNat_byte, gfmul, apply_ite (BitVec.setWidth 32)]
  simp only [argByte_eq_zero_iff hi, argByte_eq_zero_iff hj]
  rfl

/-! ## The obligations -/

/-- Settles O14, by the branches of `exec_gfAdd` and `exec_gfMul`. -/
theorem gfAddAndMul : Obligations.GfAddAndMul := by
  refine ⟨⟨rfl, _, rfl⟩, ⟨rfl, _, rfl⟩, fun s => ?_⟩
  rw [exec_gfAdd, exec_gfMul]
  refine ⟨fun h0 h1 => ?_, fun h => ⟨if_pos h, if_pos h⟩⟩
  have hrange : ¬(arg s 0 > 255 ∨ arg s 1 > 255) := by omega
  rw [if_neg hrange, if_neg hrange, resWord_gfadd h0 h1, resWord_gfmul h0 h1]
  exact ⟨rfl, rfl⟩

/-- Settles O15, by the branches of the three commands; `gfmul_gfinv` gives the inverse. -/
theorem gfInvExpAndLog : Obligations.GfInvExpAndLog := by
  refine ⟨⟨rfl, _, rfl⟩, ⟨rfl, _, rfl⟩, ⟨rfl, _, rfl⟩, fun s => ?_⟩
  rw [exec_gfInv, exec_gfExp, exec_gfLog]
  refine ⟨fun hpos h => ?_, fun h => ?_, fun h => ⟨if_pos h, if_pos h, if_pos h⟩, fun h0 => ?_⟩
  · have hzero : ¬arg s 0 = 0 := by omega
    have ha : argByte s 0 ≠ 0#8 := (argByte_eq_zero_iff h).not.mpr hzero
    rw [if_neg (by omega), if_neg hzero, if_neg (by omega), if_neg hzero, resWord_toNat_byte]
    exact ⟨⟨gfinv (argByte s 0), gfmul_gfinv ha, rfl⟩, rfl⟩
  · rw [if_neg (by omega), resWord_toNat_byte]
  · rw [if_neg (by omega), if_pos h0, if_neg (by omega), if_pos h0]
    exact ⟨rfl, rfl⟩

end Sys2Proof.Machine
end

section
/-! PROOFS. The field GF(256) inside a field of the library: a byte is the value of its bits at a root of the reduction
polynomial (42 R120, R129), so that the library's polynomials can speak of coefficient sequences. -/

namespace Sys2Proof.Machine

open Polynomial

/-- A field of characteristic 2 in which every polynomial has a root. -/
abbrev GF2Closure := AlgebraicClosure (ZMod 2)

theorem exists_reductionRoot : ∃ x : GF2Closure, x ^ 8 = x ^ 4 + x ^ 3 + x ^ 2 + 1 := by
  have hdeg : (X ^ 8 - (X ^ 4 + X ^ 3 + X ^ 2 + 1) : GF2Closure[X]).degree = 8 := by compute_degree!
  obtain ⟨x, hx⟩ := IsAlgClosed.exists_root (X ^ 8 - (X ^ 4 + X ^ 3 + X ^ 2 + 1)) (by rw [hdeg]; decide)
  exact ⟨x, sub_eq_zero.mp (by simpa using hx)⟩

/-- A root of the reduction polynomial 0x11D = x^8 + x^4 + x^3 + x^2 + 1. -/
noncomputable def reductionRoot : GF2Closure := exists_reductionRoot.choose

theorem reductionRoot_pow_eight :
    reductionRoot ^ 8 = reductionRoot ^ 4 + reductionRoot ^ 3 + reductionRoot ^ 2 + 1 :=
  exists_reductionRoot.choose_spec

/-- A byte's value at the root: bit i is the coefficient of x^i. -/
noncomputable def fieldValue (a : Byte) : GF2Closure :=
  ∑ i : Fin 8, if a.getLsbD i then reductionRoot ^ (i : Nat) else 0

@[simp] theorem fieldValue_zero : fieldValue 0#8 = 0 := by simp [fieldValue]

@[simp] theorem fieldValue_one : fieldValue 1#8 = 1 := by simp [fieldValue]

@[simp] theorem fieldValue_xor (a b : Byte) : fieldValue (a ^^^ b) = fieldValue a + fieldValue b := by
  simp only [fieldValue, ← Finset.sum_add_distrib]
  refine Finset.sum_congr rfl fun i _ => ?_
  rw [BitVec.getLsbD_xor]
  cases a.getLsbD i <;> cases b.getLsbD i <;> simp [CharTwo.add_self_eq_zero]

/-- The first entries of EXP are powers of the root; the ninth is where the reduction first acts. -/
theorem fieldValue_gfexp_of_le_eight : ∀ i ≤ 8, fieldValue (gfexp i) = reductionRoot ^ i := by
  intro i hi
  rcases Nat.lt_or_eq_of_le hi with hlt | rfl
  · have hbits : ∀ i j : Fin 8, (gfexp i).getLsbD j = decide (j = i) := by decide
    simp only [fieldValue, hbits ⟨i, hlt⟩]
    simp
  · have hexp : gfexp 8 = 0x1D#8 := by decide
    rw [hexp, reductionRoot_pow_eight]
    simp [fieldValue, Fin.sum_univ_eight, BitVec.getLsbD, Nat.testBit]
    ring

theorem fieldValue_gfdouble (a : Byte) : fieldValue (gfdouble a) = reductionRoot * fieldValue a := by
  induction a using byte_xor_induction with
  | zero => simp [gfdouble]
  | xor a b iha ihb => rw [gfdouble_xor.eq, fieldValue_xor, iha, ihb, fieldValue_xor, mul_add]
  | pow i hi =>
    rw [gfdouble_gfexp (by omega), Nat.mod_eq_of_lt (by omega), fieldValue_gfexp_of_le_eight _ (by omega),
      fieldValue_gfexp_of_le_eight _ (by omega), pow_succ']

theorem fieldValue_iterate_gfdouble (i : Nat) (a : Byte) :
    fieldValue (gfdouble^[i] a) = reductionRoot ^ i * fieldValue a := by
  induction i with
  | zero => simp
  | succ i ih => rw [Function.iterate_succ_apply', fieldValue_gfdouble, ih, pow_succ', mul_assoc]

@[simp] theorem fieldValue_gfmul (a b : Byte) : fieldValue (gfmul a b) = fieldValue a * fieldValue b := by
  by_cases ha : a = 0#8
  · simp [ha]
  · have hmul : ∀ c, fieldValue (gfmul a c) = reductionRoot ^ gflog a * fieldValue c := fun c => by
      rw [← fieldValue_iterate_gfdouble, ← gfmul_gfexp (gflog_lt ha), gfexp_gflog ha]
    have hone : fieldValue a = reductionRoot ^ gflog a := by simpa [gfmul_one_right] using hmul 1#8
    rw [hmul, hone]

@[simp] theorem fieldValue_eq_zero_iff {a : Byte} : fieldValue a = 0 ↔ a = 0#8 := by
  refine ⟨fun h => ?_, fun h => by rw [h, fieldValue_zero]⟩
  by_contra ha
  have hinv : fieldValue a * fieldValue (gfinv a) = 1 := by rw [← fieldValue_gfmul, gfmul_gfinv ha, fieldValue_one]
  rw [h, zero_mul] at hinv
  exact zero_ne_one hinv

theorem fieldValue_injective : Function.Injective fieldValue := by
  intro a b h
  have hzero : fieldValue (a ^^^ b) = 0 := by rw [fieldValue_xor, h, CharTwo.add_self_eq_zero]
  exact BitVec.xor_eq_zero_iff.mp (fieldValue_eq_zero_iff.mp hzero)

end Sys2Proof.Machine
end

section
/-! PROOFS. Coefficient sequences (43 R140) as polynomials of the library over the field GF(256) is part of: what each
operation on sequences is as an operation on polynomials. -/

namespace Sys2Proof.Machine

open Safety Polynomial

/-! ## The polynomial of a coefficient sequence -/

/-- The polynomial of a coefficient sequence, highest degree first (00 R7). -/
noncomputable def toPoly : List Byte → GF2Closure[X]
  | [] => 0
  | c :: l => C (fieldValue c) * X ^ l.length + toPoly l

@[simp] theorem toPoly_nil : toPoly [] = 0 := rfl

@[simp] theorem toPoly_cons (c : Byte) (l : List Byte) :
    toPoly (c :: l) = C (fieldValue c) * X ^ l.length + toPoly l := rfl

theorem coeffOf_of_length_le {l : List Byte} {d : Nat} (h : l.length ≤ d) : coeffOf l d = 0#8 :=
  if_neg (Nat.not_lt.mpr h)

/-- The coefficient at an index counts its degree from the end. -/
theorem coeffOf_index {l : List Byte} {i : Nat} (h : i < l.length) : coeffOf l (l.length - 1 - i) = l.getD i 0#8 := by
  rw [coeffOf, if_pos (by omega), show l.length - 1 - (l.length - 1 - i) = i by omega]

theorem coeffOf_cons (c : Byte) (l : List Byte) (d : Nat) :
    coeffOf (c :: l) d = if d = l.length then c else coeffOf l d := by
  rcases Nat.lt_trichotomy d l.length with hlt | rfl | hgt
  · have hindex : l.length - d = l.length - 1 - d + 1 := by omega
    simp [coeffOf, hlt, hlt.ne, Nat.lt_succ_of_lt hlt, hindex]
  · simp [coeffOf]
  · rw [if_neg hgt.ne', coeffOf_of_length_le hgt.le, coeffOf_of_length_le hgt]

theorem coeff_toPoly (l : List Byte) (d : Nat) : (toPoly l).coeff d = fieldValue (coeffOf l d) := by
  induction l with
  | nil => simp [coeffOf]
  | cons c l ih =>
    rw [toPoly_cons, coeff_add, coeff_C_mul_X_pow, ih, coeffOf_cons]
    split_ifs with hd
    · rw [coeffOf_of_length_le hd.ge, fieldValue_zero, add_zero]
    · rw [zero_add]

theorem toPoly_eq_iff {l m : List Byte} : toPoly l = toPoly m ↔ ∀ d, coeffOf l d = coeffOf m d := by
  simp only [Polynomial.ext_iff, coeff_toPoly, fieldValue_injective.eq_iff]

theorem degree_toPoly_lt (l : List Byte) : (toPoly l).degree < l.length := by
  rw [degree_lt_iff_coeff_zero]
  intro d hd
  rw [coeff_toPoly, coeffOf_of_length_le hd, fieldValue_zero]

/-- A non-zero first coefficient gives the degree. -/
theorem degree_toPoly_cons {c : Byte} (hc : c ≠ 0#8) (l : List Byte) :
    (toPoly (c :: l)).degree = (l.length : WithBot Nat) := by
  have hlead : (C (fieldValue c) * X ^ l.length).degree = (l.length : WithBot Nat) :=
    degree_C_mul_X_pow _ (fieldValue_eq_zero_iff.not.mpr hc)
  rw [toPoly_cons, degree_add_eq_left_of_degree_lt (hlead ▸ degree_toPoly_lt l), hlead]

theorem toPoly_append (l m : List Byte) : toPoly (l ++ m) = toPoly l * X ^ m.length + toPoly m := by
  induction l with
  | nil => simp
  | cons c l ih =>
    rw [List.cons_append, toPoly_cons, toPoly_cons, ih, List.length_append, pow_add]
    ring

@[simp] theorem toPoly_replicate_zero (n : Nat) : toPoly (List.replicate n 0#8) = 0 := by
  induction n with
  | zero => rfl
  | succ n ih => simp [List.replicate_succ, ih]

/-- Sequences of one length are equal when their polynomials are. -/
theorem eq_of_toPoly_eq {l m : List Byte} (hlen : l.length = m.length) (h : toPoly l = toPoly m) : l = m := by
  refine List.ext_getElem hlen fun i hl hm => ?_
  have hcoeff := toPoly_eq_iff.mp h (l.length - 1 - i)
  rw [coeffOf_index hl, hlen, coeffOf_index hm] at hcoeff
  simpa only [List.getD_eq_getElem _ _ hl, List.getD_eq_getElem _ _ hm] using hcoeff

theorem toPoly_map_gfmul (f : Byte) (l : List Byte) : toPoly (l.map (gfmul f)) = C (fieldValue f) * toPoly l := by
  induction l with
  | nil => simp
  | cons c l ih =>
    rw [List.map_cons, toPoly_cons, ih, toPoly_cons, List.length_map, fieldValue_gfmul, C_mul]
    ring

theorem toPoly_zipWith_xor_gfmul (f : Byte) {l m : List Byte} (h : l.length = m.length) :
    toPoly (List.zipWith (fun u c => u ^^^ gfmul c f) l m) = toPoly l + C (fieldValue f) * toPoly m := by
  induction l generalizing m with
  | nil => simp [List.length_eq_zero_iff.mp h.symm]
  | cons u l ih =>
    cases m with
    | nil => simp at h
    | cons c m =>
      have hlen : l.length = m.length := by simpa using h
      simp only [List.zipWith_cons_cons, toPoly_cons, ih hlen, List.length_zipWith, hlen, Nat.min_self, fieldValue_xor,
        fieldValue_gfmul, C_add, C_mul]
      ring

/-! ## Addition from an index on -/

theorem toPoly_addAt (i : Nat) (r v : List Byte) (h : i + v.length ≤ r.length) :
    toPoly (addAt i r v) = toPoly r + X ^ (r.length - i - v.length) * toPoly v := by
  induction i, r, v using addAt.induct with
  | case1 i v =>
    have hv : v = [] := List.length_eq_zero_iff.mp (Nat.eq_zero_of_le_zero ((Nat.le_add_left _ _).trans h))
    simp [addAt, hv]
  | case2 r => simp [addAt]
  | case3 c r u v ih =>
    have hlen : v.length ≤ r.length := by simpa using h
    have hpow : X ^ (r.length - v.length) * X ^ v.length = (X : GF2Closure[X]) ^ r.length := by
      rw [← pow_add, Nat.sub_add_cancel hlen]
    rw [addAt, toPoly_cons, ih (by simpa using hlen), addAt_length, gfadd, fieldValue_xor, C_add]
    simp only [toPoly_cons, List.length_cons, Nat.sub_zero, Nat.add_sub_add_right]
    linear_combination -C (fieldValue u) * hpow
  | case4 i c r v ih =>
    have hlen : i + v.length ≤ r.length := by simp at h; omega
    rw [addAt, toPoly_cons, ih hlen, toPoly_cons, addAt_length, List.length_cons, Nat.add_sub_add_right]
    ring

theorem addAt_getD_of_lt {i j : Nat} (r v : List Byte) (h : j < i) : (addAt i r v).getD j 0#8 = r.getD j 0#8 := by
  induction i, r, v using addAt.induct generalizing j with
  | case1 i v => simp [addAt]
  | case2 r => simp [addAt]
  | case3 c r u v ih => exact absurd h (Nat.not_lt_zero j)
  | case4 i c r v ih =>
    cases j with
    | zero => simp [addAt]
    | succ j => simpa [addAt] using ih (Nat.lt_of_succ_lt_succ h)

theorem addAt_getD_self {i : Nat} {r : List Byte} (u : Byte) (v : List Byte) (h : i < r.length) :
    (addAt i r (u :: v)).getD i 0#8 = r.getD i 0#8 ^^^ u := by
  induction i generalizing r with
  | zero =>
    obtain ⟨c, r, rfl⟩ := List.exists_cons_of_length_pos h
    simp [addAt, gfadd]
  | succ i ih =>
    obtain ⟨c, r, rfl⟩ := List.exists_cons_of_length_pos (Nat.zero_lt_of_lt h)
    simpa [addAt] using ih (Nat.lt_of_succ_lt_succ h)

end Sys2Proof.Machine
end

section
/-! PROOFS. The product and the generator polynomial (43 R141, R143). -/

namespace Sys2Proof.Machine

open Safety Polynomial

/-! ## The product -/

/-- The polynomial whose coefficient of x^k is the entry at index k: the order in which 43 R143 numbers the product. -/
noncomputable def indexPoly (l : List Byte) : GF2Closure[X] :=
  ∑ i ∈ Finset.range l.length, monomial i (fieldValue (l.getD i 0#8))

theorem coeff_indexPoly (l : List Byte) (k : Nat) : (indexPoly l).coeff k = fieldValue (l.getD k 0#8) := by
  simp only [indexPoly, finsetSum_coeff, coeff_monomial, Finset.sum_ite_eq', Finset.mem_range]
  split_ifs with hk
  · rfl
  · rw [List.getD_eq_default _ _ (Nat.not_lt.mp hk), fieldValue_zero]

theorem natDegree_indexPoly_le (l : List Byte) : (indexPoly l).natDegree ≤ l.length - 1 := by
  rw [natDegree_le_iff_coeff_eq_zero]
  intro k hk
  rw [coeff_indexPoly, List.getD_eq_default _ _ (by omega), fieldValue_zero]

/-- Numbering from the other end reflects the polynomial. -/
theorem toPoly_eq_reflect (l : List Byte) : toPoly l = reflect (l.length - 1) (indexPoly l) := by
  rcases eq_or_ne l [] with rfl | hl
  · simp [indexPoly]
  have hpos := List.length_pos_iff.mpr hl
  ext d
  rw [coeff_toPoly, coeff_reflect, coeff_indexPoly, coeffOf]
  split_ifs with hd
  · rw [revAt_le (by omega)]
  · rw [revAt_eq_self_of_lt (by omega), List.getD_eq_default _ _ (by omega)]

theorem fieldValue_foldl_xor (p : Nat → Prop) [DecidablePred p] (f : Nat → Byte) (n : Nat) :
    fieldValue ((List.range n).foldl (fun acc j => if p j then acc ^^^ f j else acc) 0#8)
      = ∑ j ∈ Finset.range n, if p j then fieldValue (f j) else 0 := by
  induction n with
  | zero => simp
  | succ n ih =>
    rw [List.range_succ, List.foldl_append, List.foldl_cons, List.foldl_nil, Finset.sum_range_succ, ← ih]
    split_ifs
    · rw [fieldValue_xor]
    · rw [add_zero]

/-- The product's coefficients by index are those of the library's product (43 R143). -/
theorem fieldValue_polymulCoeff (A B : List Byte) (k : Nat) :
    fieldValue (polymulCoeff A B k) = (indexPoly A * indexPoly B).coeff k := by
  rw [mul_comm, coeff_mul, Finset.Nat.sum_antidiagonal_eq_sum_range_succ_mk]
  simp only [polymulCoeff, gfadd, fieldValue_foldl_xor, coeff_indexPoly, ← Finset.sum_filter, fieldValue_gfmul,
    mul_comm (fieldValue (A.getD _ _))]
  refine Finset.sum_subset (fun j hj => ?_) fun j hj hout => ?_
  · simp only [Finset.mem_filter, Finset.mem_range] at hj ⊢
    omega
  · simp only [Finset.mem_filter, Finset.mem_range] at hj hout
    rcases Nat.lt_or_ge j B.length with hlt | hge
    · rw [List.getD_eq_default A _ (by omega), fieldValue_zero, mul_zero]
    · rw [List.getD_eq_default B _ hge, fieldValue_zero, zero_mul]

theorem polymulCoeff_comm (A B : List Byte) (k : Nat) : polymulCoeff A B k = polymulCoeff B A k := by
  apply fieldValue_injective
  rw [fieldValue_polymulCoeff, fieldValue_polymulCoeff, mul_comm]

theorem polymul_getElem? {A B : List Byte} {k : Nat} (h : k < A.length + B.length - 1) :
    (polymul A B)[k]? = some (polymulCoeff A B k) := by
  rw [polymul, List.getElem?_map, List.getElem?_range h, Option.map_some]

/-- Settles O30: the sum over the indices of A is the model's sum with the factors exchanged. -/
theorem polymulCoefficients : Obligations.PolymulCoefficients := by
  refine fun A B _ _ => ⟨polymul_length A B, fun k hk => ?_⟩
  rw [polymul_getElem? hk, polymulCoeff_comm]
  simp only [polymulCoeff, gfadd, gfmul_comm (A.getD _ _)]

theorem indexPoly_polymul {A B : List Byte} (hA : A ≠ []) (hB : B ≠ []) :
    indexPoly (polymul A B) = indexPoly A * indexPoly B := by
  ext k
  rw [coeff_indexPoly]
  rcases Nat.lt_or_ge k (A.length + B.length - 1) with hlt | hge
  · rw [List.getD_eq_getElem?_getD, polymul_getElem? hlt, Option.getD_some, fieldValue_polymulCoeff]
  · have hlenA := List.length_pos_iff.mpr hA
    have hlenB := List.length_pos_iff.mpr hB
    have hdeg : (indexPoly A * indexPoly B).natDegree ≤ A.length - 1 + (B.length - 1) :=
      natDegree_mul_le_of_le (natDegree_indexPoly_le A) (natDegree_indexPoly_le B)
    rw [List.getD_eq_default _ _ (by rwa [polymul_length]), fieldValue_zero, coeff_eq_zero_of_natDegree_lt (by omega)]

/-- `polymul` is the product of polynomials (43 R143). -/
theorem toPoly_polymul {A B : List Byte} (hA : A ≠ []) (hB : B ≠ []) :
    toPoly (polymul A B) = toPoly A * toPoly B := by
  have hlenA := List.length_pos_iff.mpr hA
  have hlenB := List.length_pos_iff.mpr hB
  have hlen : (polymul A B).length - 1 = A.length - 1 + (B.length - 1) := by
    rw [polymul_length]
    omega
  rw [toPoly_eq_reflect, toPoly_eq_reflect A, toPoly_eq_reflect B, hlen, indexPoly_polymul hA hB,
    reflect_mul _ _ (natDegree_indexPoly_le A) (natDegree_indexPoly_le B)]

/-! ## The generator polynomial -/

/-- A factor x + c keeps the first coefficient (43 R141). -/
theorem polymulCoeff_factor_zero (A : List Byte) (c : Byte) : polymulCoeff A [1#8, c] 0 = A.getD 0 0#8 := by
  cases A <;> simp [polymulCoeff, List.range_succ, gfadd, gfmul_one_right]

theorem generator_getElem?_zero (e : Nat) : (generator e)[0]? = some 1#8 := by
  induction e with
  | zero => rfl
  | succ e ih =>
    rw [generator_succ, polymul_getElem? (by simp), polymulCoeff_factor_zero, List.getD_eq_getElem?_getD, ih,
      Option.getD_some]

/-- Settles O29, from the recurrence of the loop and the first coefficient of a product with a monic factor. -/
theorem generatorPolynomial : Obligations.GeneratorPolynomial :=
  ⟨generator_zero, generator_succ, fun e _ => ⟨generator_length e, generator_getElem?_zero e⟩⟩

end Sys2Proof.Machine
end

section
/-! PROOFS. The remainder (43 R145), as the remainder of the library's polynomials, and the shift-register form of the
codewords (43 R149), which leaves the same one. -/

namespace Sys2Proof.Machine

open Safety Polynomial

/-! ## The division loop -/

/-- One pass adds a multiple of the divisor; where the pass skips, the factor is 0. -/
theorem toPoly_divStep {B r : List Byte} {li : Byte} {i : Nat} (h : i + B.length ≤ r.length) :
    toPoly (divStep B li r i) =
      toPoly r + X ^ (r.length - i - B.length) * (C (fieldValue (gfmul (r.getD i 0#8) li)) * toPoly B) := by
  unfold divStep
  split_ifs with hzero
  · rw [hzero, gfmul_zero_left, fieldValue_zero, C_0, zero_mul, mul_zero, add_zero]
  · rw [toPoly_addAt _ _ _ (by simpa using h), toPoly_map_gfmul, List.length_map]

theorem divStep_getD_of_lt {B r : List Byte} {li : Byte} {i j : Nat} (h : j < i) :
    (divStep B li r i).getD j 0#8 = r.getD j 0#8 := by
  unfold divStep
  split_ifs
  · rfl
  · exact addAt_getD_of_lt _ _ h

/-- A pass clears the coefficient it stands at: f is chosen so (43 R145). -/
theorem divStep_getD_self {b : Byte} {l r : List Byte} {i : Nat} (hb : b ≠ 0#8) (h : i < r.length) :
    (divStep (b :: l) (gfinv b) r i).getD i 0#8 = 0#8 := by
  unfold divStep
  split_ifs with hzero
  · exact hzero
  · rw [List.map_cons, addAt_getD_self _ _ h, gfmul_assoc, gfmul_comm (gfinv b), gfmul_gfinv hb, gfmul_one_right,
      BitVec.xor_self]

/-- `r` is the working copy after `k` passes of the loop that divides `A` by `B`: its first `k` coefficients are 0, and
the quotient so far, shifted to its place, accounts for what is gone. -/
structure DividedBy (A B : List Byte) (k : Nat) (r : List Byte) : Prop where
  length_eq : r.length = A.length
  cleared : ∀ j < k, r.getD j 0#8 = 0#8
  exists_quotient : ∃ Q : List Byte, Q ≠ [] ∧
    toPoly A = X ^ (A.length + 1 - B.length - k) * (toPoly Q * toPoly B) + toPoly r

theorem dividedBy_zero (A B : List Byte) : DividedBy A B 0 A where
  length_eq := rfl
  cleared j hj := absurd hj (Nat.not_lt_zero j)
  exists_quotient := ⟨[0#8], List.cons_ne_nil _ _, by simp⟩

theorem DividedBy.pass {A l r : List Byte} {b : Byte} {k : Nat} (h : DividedBy A (b :: l) k r) (hb : b ≠ 0#8)
    (hk : k + (b :: l).length ≤ A.length) :
    DividedBy A (b :: l) (k + 1) (divStep (b :: l) (gfinv b) r k) where
  length_eq := by rw [divStep_length, h.length_eq]
  cleared j hj := by
    rcases Nat.lt_succ_iff_lt_or_eq.mp hj with hlt | rfl
    · rw [divStep_getD_of_lt hlt, h.cleared j hlt]
    · refine divStep_getD_self hb ?_
      rw [h.length_eq]
      exact Nat.lt_of_lt_of_le (Nat.lt_add_of_pos_right (by simp)) hk
  exists_quotient := by
    obtain ⟨hlen, -, Q, -, hQ⟩ := h
    refine ⟨Q ++ [gfmul (r.getD k 0#8) (gfinv b)], by simp, ?_⟩
    have hshift : A.length + 1 - (b :: l).length - k = A.length - k - (b :: l).length + 1 := by omega
    have hshift' : A.length + 1 - (b :: l).length - (k + 1) = A.length - k - (b :: l).length := by omega
    rw [toPoly_divStep (by rwa [hlen]), hlen, toPoly_append, hshift', hQ, hshift, pow_succ]
    simp only [toPoly_cons, toPoly_nil, List.length_cons, List.length_nil]
    linear_combination -CharTwo.add_self_eq_zero (X ^ (A.length - k - (l.length + 1))
      * (C (fieldValue (gfmul (r.getD k 0#8) (gfinv b))) * (C (fieldValue b) * X ^ l.length + toPoly l)))

theorem dividedBy_divLoop (A l : List Byte) {b : Byte} (hb : b ≠ 0#8) :
    DividedBy A (b :: l) (A.length + 1 - (b :: l).length) (divLoop A (b :: l)) := by
  have hpasses : ∀ k ≤ A.length + 1 - (b :: l).length,
      DividedBy A (b :: l) k ((List.range k).foldl (divStep (b :: l) (gfinv b)) A) := by
    intro k
    induction k with
    | zero => exact fun _ => dividedBy_zero A _
    | succ k ih =>
      intro hk
      rw [List.range_succ, List.foldl_append]
      exact (ih (by omega)).pass hb (by omega)
  exact hpasses _ le_rfl

/-! ## The remainder -/

/-- The divisor without its leading zeros is the same polynomial, and its first coefficient is not 0. -/
theorem exists_drop_leadingZeros {B : List Byte} (h : ∃ c ∈ B, c ≠ 0#8) :
    ∃ b l, B.drop (leadingZeros B) = b :: l ∧ b ≠ 0#8 ∧ l.length < B.length ∧ toPoly B = toPoly (b :: l) := by
  induction B with
  | nil => simp at h
  | cons c B ih =>
    rw [leadingZeros]
    split_ifs with hc
    · obtain ⟨b, l, hdrop, hb, hlen, hpoly⟩ := ih (by simpa [hc] using h)
      exact ⟨b, l, hdrop, hb, Nat.lt_succ_of_lt hlen, by rw [toPoly_cons, hc, hpoly]; simp⟩
    · exact ⟨c, B, rfl, hc, Nat.lt_succ_self _, rfl⟩

theorem coeffOf_polymod (A B : List Byte) (d : Nat) : coeffOf (polymod A B) d =
    if d < B.length - 1 then coeffOf (divLoop A (B.drop (leadingZeros B))) d else 0#8 := by
  rw [coeffOf, polymod_length]
  split_ifs with hd
  · rw [polymod, List.getD_eq_getElem?_getD, List.getElem?_map, List.getElem?_range (by omega), Option.map_some,
      Option.getD_some, show B.length - 2 - (B.length - 1 - 1 - d) = d by omega]
  · rfl

/-- `polymod` divides with remainder (43 R145). -/
theorem polymod_divides (A : List Byte) {B : List Byte} (hB : ∃ c ∈ B, c ≠ 0#8) :
    (∃ Q : List Byte, Q ≠ [] ∧ toPoly A = toPoly Q * toPoly B + toPoly (polymod A B))
      ∧ (toPoly (polymod A B)).degree < (toPoly B).degree := by
  obtain ⟨b, l, hdrop, hb, hlen, hpoly⟩ := exists_drop_leadingZeros hB
  obtain ⟨hlenr, hcleared, Q, hQ, hdiv⟩ := dividedBy_divLoop A l hb
  have hhigh : ∀ d, l.length ≤ d → coeffOf (divLoop A (b :: l)) d = 0#8 := by
    intro d hd
    rw [coeffOf]
    split_ifs with hlt
    · refine hcleared _ ?_
      rw [List.length_cons]
      omega
    · rfl
  have hmod : toPoly (polymod A B) = toPoly (divLoop A (b :: l)) := by
    refine toPoly_eq_iff.mpr fun d => ?_
    rw [coeffOf_polymod, hdrop]
    split_ifs with hd
    · rfl
    · exact (hhigh d (by omega)).symm
  refine ⟨⟨Q, hQ, ?_⟩, ?_⟩
  · rw [hmod, hpoly, hdiv, Nat.sub_self, pow_zero, one_mul]
  · rw [hmod, hpoly, degree_toPoly_cons hb, degree_lt_iff_coeff_zero]
    intro d hd
    rw [coeff_toPoly, hhigh d hd, fieldValue_zero]

/-- Two remainders that differ by a multiple of the divisor are one. -/
theorem remainder_unique {G P R : GF2Closure[X]} (h : G ∣ P - R) (hP : P.degree < G.degree)
    (hR : R.degree < G.degree) : P = R :=
  sub_eq_zero.mp (eq_zero_of_dvd_of_degree_lt h ((degree_sub_le P R).trans_lt (max_lt hP hR)))

/-- The degree condition of 43 R145, coefficient by coefficient. -/
theorem degree_toPoly_lt_iff {B R : List Byte} (hB : toPoly B ≠ 0) : (toPoly R).degree < (toPoly B).degree ↔
    ∀ d, (∀ e, d < e → coeffOf B e = 0#8) → coeffOf R d = 0#8 := by
  rw [degree_eq_natDegree hB, degree_lt_iff_coeff_zero]
  refine forall_congr' fun d => ?_
  rw [natDegree_le_iff_coeff_eq_zero]
  simp only [coeff_toPoly, fieldValue_eq_zero_iff]

/-- The equation of 43 R145, coefficient by coefficient. -/
theorem toPoly_eq_mul_add_iff {A Q B R : List Byte} (hQ : Q ≠ []) (hB : B ≠ []) :
    toPoly A = toPoly Q * toPoly B + toPoly R ↔ ∀ d, coeffOf A d = coeffOf (polymul Q B) d ^^^ coeffOf R d := by
  simp only [← toPoly_polymul hQ hB, Polynomial.ext_iff, coeff_add, coeff_toPoly, ← fieldValue_xor,
    fieldValue_injective.eq_iff]

/-- Settles O31: `polymod_divides` read coefficient by coefficient, and `remainder_unique`. -/
theorem polymodIsRemainder : Obligations.PolymodIsRemainder := by
  intro A B _ hB
  have hnil : B ≠ [] := List.ne_nil_of_mem hB.choose_spec.1
  obtain ⟨⟨Q, hQ, hdiv⟩, hdeg⟩ := polymod_divides A hB
  have hne : toPoly B ≠ 0 := ne_zero_of_degree_gt hdeg
  refine ⟨polymod_length A B, (degree_toPoly_lt_iff hne).mp hdeg,
    ⟨Q, hQ, (toPoly_eq_mul_add_iff hQ hnil).mp hdiv⟩, ?_⟩
  intro Q' R hQ' hdiv' hdeg'
  have hdivR := (toPoly_eq_mul_add_iff hQ' hnil).mpr hdiv'
  refine toPoly_eq_iff.mp (remainder_unique ?_ ((degree_toPoly_lt_iff hne).mpr hdeg') hdeg)
  exact ⟨toPoly Q - toPoly Q', by linear_combination hdiv - hdivR⟩

/-! ## The shift register -/

theorem shiftStep_length {g r : List Byte} (h : g.length = r.length + 1) (hr : r ≠ []) (d : Byte) :
    (shiftStep g r d).length = r.length := by
  have hpos := List.length_pos_iff.mpr hr
  simp only [shiftStep, List.length_zipWith, List.length_append, List.length_tail, List.length_singleton, h]
  omega

/-- One byte of the procedure: the register times x, the byte at x^e, and a multiple of the generator (43 R149). -/
theorem toPoly_shiftStep {t r : List Byte} (h : t.length = r.length) (hr : r ≠ []) (d : Byte) :
    toPoly (shiftStep (1#8 :: t) r d) = toPoly r * X + C (fieldValue d) * X ^ r.length
      + C (fieldValue (d ^^^ r.getD 0 0#8)) * toPoly (1#8 :: t) := by
  obtain ⟨c, r, rfl⟩ := List.exists_cons_of_ne_nil hr
  have hlen : (r ++ [0#8]).length = t.length := by rw [h]; simp
  rw [shiftStep, List.tail_cons, List.tail_cons, toPoly_zipWith_xor_gfmul _ hlen, toPoly_append, List.getD_cons_zero,
    fieldValue_xor, C_add]
  simp only [toPoly_cons, toPoly_nil, h, List.length_cons, List.length_nil, fieldValue_zero, fieldValue_one, C_0, C_1,
    pow_succ]
  linear_combination -CharTwo.add_self_eq_zero ((C (fieldValue c) + C (fieldValue d)) * (X ^ r.length * X))

theorem shiftRegister_append_singleton (D : List Byte) (d : Byte) (e : Nat) :
    shiftRegister (D ++ [d]) e = shiftStep (generator e) (shiftRegister D e) d := by
  simp only [shiftRegister, List.foldl_append, List.foldl_cons, List.foldl_nil]

theorem shiftRegister_length {D : List Byte} {e : Nat} (he : e ≠ 0) : (shiftRegister D e).length = e := by
  induction D using List.reverseRecOn with
  | nil => exact List.length_replicate
  | append_singleton D d ih =>
    have hne : shiftRegister D e ≠ [] := List.ne_nil_of_length_pos (by omega)
    rw [shiftRegister_append_singleton, shiftStep_length (by rw [generator_length, ih]) hne, ih]

/-- The generator polynomial is a 1 before e coefficients (43 R141). -/
theorem exists_generator_eq_cons (e : Nat) : ∃ t : List Byte, t.length = e ∧ generator e = 1#8 :: t := by
  obtain ⟨c, t, ht⟩ := List.exists_cons_of_length_pos (l := generator e) (by simp)
  have hlen : (generator e).length = e + 1 := generator_length e
  have hfirst : (generator e)[0]? = some 1#8 := generator_getElem?_zero e
  rw [ht] at hlen hfirst
  exact ⟨t, by simpa using hlen, by simpa [ht] using hfirst⟩

/-- The register holds D(x) x^e up to a multiple of the generator, after every byte (43 R149). -/
theorem generator_dvd_shiftRegister_sub {D : List Byte} {e : Nat} (he : e ≠ 0) :
    toPoly (generator e) ∣ toPoly (shiftRegister D e) - toPoly D * X ^ e := by
  induction D using List.reverseRecOn with
  | nil => simp [shiftRegister]
  | append_singleton D d ih =>
    obtain ⟨t, ht, hgen⟩ := exists_generator_eq_cons e
    obtain ⟨q, hq⟩ := ih
    have hlen : (shiftRegister D e).length = e := shiftRegister_length he
    have hne : shiftRegister D e ≠ [] := List.ne_nil_of_length_pos (by omega)
    have hpoly := toPoly_shiftStep (ht.trans hlen.symm) hne d
    rw [← hgen, hlen] at hpoly
    refine ⟨q * X + C (fieldValue (d ^^^ (shiftRegister D e).getD 0 0#8)), ?_⟩
    rw [shiftRegister_append_singleton, hpoly, toPoly_append]
    simp only [toPoly_cons, toPoly_nil, List.length_cons, List.length_nil]
    linear_combination X * hq

/-- Settles O32: both forms leave a remainder of D(x) x^e modulo the generator polynomial. -/
theorem shiftRegisterGivesCodewords : Obligations.ShiftRegisterGivesCodewords := by
  intro D e he _
  have he0 : e ≠ 0 := Nat.ne_zero_of_lt he
  obtain ⟨t, ht, hgen⟩ := exists_generator_eq_cons e
  have hdegree : (toPoly (generator e)).degree = e := by rw [hgen, degree_toPoly_cons (by decide), ht]
  have hnonzero : ∃ c ∈ generator e, c ≠ 0#8 := ⟨1#8, by simp [hgen], by decide⟩
  obtain ⟨⟨Q, -, hdiv⟩, hdeg⟩ := polymod_divides (D ++ List.replicate e 0#8) hnonzero
  rw [toPoly_append, toPoly_replicate_zero, List.length_replicate, add_zero] at hdiv
  have hlen : (shiftRegister D e).length = e := shiftRegister_length he0
  refine eq_of_toPoly_eq (hlen.trans (rsec_length D e).symm) (remainder_unique ?_ ?_ hdeg)
  · have hsub : toPoly (shiftRegister D e) - toPoly (rsec D e)
        = toPoly (shiftRegister D e) - toPoly D * X ^ e + toPoly (generator e) * toPoly Q := by
      rw [rsec]
      linear_combination hdiv
    exact hsub ▸ (generator_dvd_shiftRegister_sub he0).add (dvd_mul_right _ _)
  · rw [hdegree]
    exact (degree_toPoly_lt _).trans_eq (by rw [hlen])

end Sys2Proof.Machine
end

section
/-! PROOFS. The commands of the polynomial unit (43 R142, R144, R146, R148). -/

namespace Sys2Proof.Machine

open Safety

theorem overlap_iff {o1 n1 o2 n2 : Nat} : overlap o1 n1 o2 n2 = true ↔ Overlaps o1 n1 o2 n2 := by
  simp only [overlap, Overlaps, Bool.and_eq_true, decide_eq_true_eq, and_assoc]

/-! ## The checks that POLY_MUL and POLY_MOD share -/

/-- The checks of 43 R144 and R146 in their order, for a result of `r` bytes, before the command answers `x`. -/
def polyChecks (s : State) (r : Nat) (x : Result) : Result :=
  if arg s 1 = 0 ∨ arg s 3 = 0 then .next (errState 0x02#8 s)
  else if inCw (arg s 0) (arg s 1) = false then .next (errState 0x0C#8 s)
  else if inCw (arg s 2) (arg s 3) = false then .next (errState 0x0C#8 s)
  else if inCw (arg s 4) r = false then .next (errState 0x0C#8 s)
  else if overlap (arg s 4) r (arg s 0) (arg s 1) = true ∨ overlap (arg s 4) r (arg s 2) (arg s 3) = true then
    .next (errState 0x0D#8 s)
  else x

section
variable {s : State} {r : Nat} {x : Result}

theorem polyChecks_range (h : arg s 1 = 0 ∨ arg s 3 = 0) : polyChecks s r x = .next (errState 0x02#8 s) := if_pos h

theorem polyChecks_cwBounds (h1 : arg s 1 ≠ 0) (h3 : arg s 3 ≠ 0)
    (hb : ¬(InCw (arg s 0) (arg s 1) ∧ InCw (arg s 2) (arg s 3) ∧ InCw (arg s 4) r)) :
    polyChecks s r x = .next (errState 0x0C#8 s) := by
  unfold polyChecks
  rw [if_neg (not_or.mpr ⟨h1, h3⟩)]
  split_ifs with hA hB hR
  · rfl
  · rfl
  · rfl
  all_goals exact absurd ⟨inCw_ne_false_iff.mp hA, inCw_ne_false_iff.mp hB, inCw_ne_false_iff.mp hR⟩ hb

theorem polyChecks_of_inBounds (h1 : arg s 1 ≠ 0) (h3 : arg s 3 ≠ 0)
    (hb : InCw (arg s 0) (arg s 1) ∧ InCw (arg s 2) (arg s 3) ∧ InCw (arg s 4) r) :
    polyChecks s r x =
      if overlap (arg s 4) r (arg s 0) (arg s 1) = true ∨ overlap (arg s 4) r (arg s 2) (arg s 3) = true then
        .next (errState 0x0D#8 s)
      else x := by
  obtain ⟨hA, hB, hR⟩ := hb
  unfold polyChecks
  rw [if_neg (not_or.mpr ⟨h1, h3⟩), if_neg (inCw_ne_false_iff.mpr hA), if_neg (inCw_ne_false_iff.mpr hB),
    if_neg (inCw_ne_false_iff.mpr hR)]

theorem polyChecks_overlap (h1 : arg s 1 ≠ 0) (h3 : arg s 3 ≠ 0)
    (hb : InCw (arg s 0) (arg s 1) ∧ InCw (arg s 2) (arg s 3) ∧ InCw (arg s 4) r)
    (ho : Overlaps (arg s 4) r (arg s 0) (arg s 1) ∨ Overlaps (arg s 4) r (arg s 2) (arg s 3)) :
    polyChecks s r x = .next (errState 0x0D#8 s) := by
  rw [polyChecks_of_inBounds h1 h3 hb, if_pos (by simpa only [overlap_iff] using ho)]

theorem polyChecks_passed (h1 : arg s 1 ≠ 0) (h3 : arg s 3 ≠ 0)
    (hb : InCw (arg s 0) (arg s 1) ∧ InCw (arg s 2) (arg s 3) ∧ InCw (arg s 4) r)
    (ho : ¬(Overlaps (arg s 4) r (arg s 0) (arg s 1) ∨ Overlaps (arg s 4) r (arg s 2) (arg s 3))) :
    polyChecks s r x = x := by
  rw [polyChecks_of_inBounds h1 h3 hb, if_neg (by simpa only [overlap_iff] using ho)]

end

/-! ## The divisor of POLY_MOD -/

/-- What POLY_MOD answers to the bytes of its operands, each with the draw counter after its read (43 R146). -/
def polyModAnswer (s : State) (A B : List Byte × Nat) : Result :=
  if B.1.all (· == 0#8) = true then .next (errState 0x0A#8 { s with draws := B.2 })
  else .next (okState { s with cw := writeBytes s.cw (arg s 4) (polymod A.1 B.1), draws := A.2 })

theorem polyModAnswer_zero {s : State} {A B : List Byte × Nat} (h : ∀ c ∈ B.1, c = 0#8) :
    polyModAnswer s A B = .next (errState 0x0A#8 { s with draws := B.2 }) :=
  if_pos (List.all_eq_true.mpr fun c hc => beq_iff_eq.mpr (h c hc))

theorem polyModAnswer_ne_zero {s : State} {A B : List Byte × Nat} (h : ∃ c ∈ B.1, c ≠ 0#8) :
    polyModAnswer s A B
      = .next (okState { s with cw := writeBytes s.cw (arg s 4) (polymod A.1 B.1), draws := A.2 }) := by
  obtain ⟨c, hc, hne⟩ := h
  exact if_neg fun hall => hne (beq_iff_eq.mp (List.all_eq_true.mp hall c hc))

/-- A written byte that is not 0 is among the bytes that a read gives. -/
theorem exists_ne_zero_of_written {s : State} {off n : Nat} {B : List Byte} (hB : ReadsRegion s off n B)
    (h : ∃ j < n, ∃ c, cwGet? s.cw (off + j) = some c ∧ c ≠ 0#8) : ∃ c ∈ B, c ≠ 0#8 := by
  obtain ⟨j, hj, c, hc, hne⟩ := h
  exact ⟨c, List.mem_of_getElem? (hB.2 j hj c hc), hne⟩

/-- Where every byte is written as 0, a read gives zeros. -/
theorem eq_zero_of_written {s : State} {off n : Nat} {B : List Byte} (hB : ReadsRegion s off n B)
    (h : ∀ j < n, cwGet? s.cw (off + j) = some 0#8) : ∀ c ∈ B, c = 0#8 := by
  intro c hc
  obtain ⟨hlen, hread⟩ := hB
  obtain ⟨j, hj, rfl⟩ := List.getElem_of_mem hc
  have hwritten : B[j]? = some 0#8 := hread j (hlen ▸ hj) _ (h j (hlen ▸ hj))
  rwa [List.getElem?_eq_getElem hj, Option.some_inj] at hwritten

/-! ## The commands: the checks in their order, each with its completion (60 R212 to R214) -/

section
variable (s : State)

theorem exec_rsGen : exec .rsGen s =
    if arg s 0 > 255 then .next (errState 0x02#8 s)
    else if inCw (arg s 1) (arg s 0 + 1) = false then .next (errState 0x0C#8 s)
    else .next (okState { s with cw := writeBytes s.cw (arg s 1) (generator (arg s 0)) }) := rfl

theorem exec_polyMul : exec .polyMul s = polyChecks s (arg s 1 + arg s 3 - 1)
    (let A := readBytes s.cw (arg s 0) (arg s 1) s.draws
     let B := readBytes s.cw (arg s 2) (arg s 3) A.2
     .next (okState { s with cw := writeBytes s.cw (arg s 4) (polymul A.1 B.1), draws := B.2 })) := rfl

/-- B is read before A (43 R146). -/
theorem exec_polyMod : exec .polyMod s = polyChecks s (arg s 3 - 1)
    (let B := readBytes s.cw (arg s 2) (arg s 3) s.draws
     polyModAnswer s (readBytes s.cw (arg s 0) (arg s 1) B.2) B) := rfl

theorem exec_rsEnc : exec .rsEnc s =
    if arg s 2 = 0 then .next (errState 0x08#8 s)
    else if arg s 1 = 0 then .next (errState 0x09#8 s)
    else if arg s 2 > 255 then .next (errState 0x02#8 s)
    else if inCw (arg s 0) (arg s 1) = false then .next (errState 0x0C#8 s)
    else if inCw (arg s 3) (arg s 2) = false then .next (errState 0x0C#8 s)
    else if overlap (arg s 3) (arg s 2) (arg s 0) (arg s 1) = true then .next (errState 0x0D#8 s)
    else
      let D := readBytes s.cw (arg s 0) (arg s 1) s.draws
      .next (okState { s with cw := writeBytes s.cw (arg s 3) (rsec D.1 (arg s 2)), draws := D.2 }) := rfl

end

theorem exec_rsEnc_of_inBounds {s : State} (he : arg s 2 ≠ 0) (hk : arg s 1 ≠ 0) (hmax : arg s 2 ≤ 255)
    (hb : InCw (arg s 0) (arg s 1) ∧ InCw (arg s 3) (arg s 2)) : exec .rsEnc s =
      if overlap (arg s 3) (arg s 2) (arg s 0) (arg s 1) = true then .next (errState 0x0D#8 s)
      else
        let D := readBytes s.cw (arg s 0) (arg s 1) s.draws
        .next (okState { s with cw := writeBytes s.cw (arg s 3) (rsec D.1 (arg s 2)), draws := D.2 }) := by
  rw [exec_rsEnc, if_neg he, if_neg hk, if_neg (Nat.not_lt.mpr hmax), if_neg (inCw_ne_false_iff.mpr hb.1),
    if_neg (inCw_ne_false_iff.mpr hb.2)]

/-! ## The obligations -/

/-- Settles O16, by the branches of `exec_rsGen`. -/
theorem rsGenStoresGenerator : Obligations.RsGenStoresGenerator := by
  refine ⟨⟨rfl, _, rfl⟩, fun s => ?_⟩
  rw [exec_rsGen]
  refine ⟨fun he hb => ?_, fun he => if_pos he, fun he hb => ?_⟩
  · rw [if_neg (by omega), if_neg (inCw_ne_false_iff.mpr hb)]
    exact ⟨_, rfl, rfl, generator_length _, stores_of_cw_eq rfl⟩
  · rw [if_neg (by omega), if_pos (inCw_eq_false_iff.mpr hb)]

/-- Settles O17, by the shared checks; the operands and the draws are those of `MemRead`. -/
theorem polyMulStoresProduct : Obligations.PolyMulStoresProduct := by
  refine ⟨⟨rfl, _, rfl⟩, fun s => ?_⟩
  dsimp only
  rw [exec_polyMul]
  refine ⟨fun hn hm hb ho => ?_, polyChecks_range, polyChecks_cwBounds, polyChecks_overlap⟩
  refine ⟨_, _, _, readsRegion_readBytes s _ _ s.draws, readsRegion_readBytes s _ _ _, polyChecks_passed hn hm hb ho,
    rfl, fun hA hB => ?_, stores_of_cw_eq rfl⟩
  exact (readBytes_draws_of_written _ _ _ _ hB).trans (readBytes_draws_of_written _ _ _ _ hA)

/-- Settles O18, by the shared checks; what the read of the divisor gives decides between DIV_ZERO and the remainder. -/
theorem polyModStoresRemainder : Obligations.PolyModStoresRemainder := by
  refine ⟨⟨rfl, _, rfl⟩, fun s => ?_⟩
  dsimp only
  rw [exec_polyMod]
  refine ⟨fun hn hm hb ho => ?_, polyChecks_range, polyChecks_cwBounds, polyChecks_overlap⟩
  rw [polyChecks_passed hn hm hb ho]
  have hreadB := readsRegion_readBytes s (arg s 2) (arg s 3) s.draws
  have hreadA := readsRegion_readBytes s (arg s 0) (arg s 1) (readBytes s.cw (arg s 2) (arg s 3) s.draws).2
  refine ⟨fun hwritten => ?_, fun hwritten => ?_, _, _, hreadB, polyModAnswer_zero, fun hne => ?_⟩
  · refine ⟨_, _, _, hreadA, hreadB, polyModAnswer_ne_zero (exists_ne_zero_of_written hreadB hwritten), rfl,
      fun hA hB => ?_, stores_of_cw_eq rfl⟩
    exact (readBytes_draws_of_written _ _ _ _ hA).trans (readBytes_draws_of_written _ _ _ _ hB)
  · have hdraws := readBytes_draws_of_written s.cw (arg s 2) (arg s 3) s.draws fun j hj => by rw [hwritten j hj]; rfl
    rw [polyModAnswer_zero (eq_zero_of_written hreadB hwritten), hdraws]
  · exact ⟨_, _, hreadA, polyModAnswer_ne_zero hne, rfl, stores_of_cw_eq rfl⟩

/-- Settles O19, by the branches of `exec_rsEnc`. -/
theorem rsEncStoresCodewords : Obligations.RsEncStoresCodewords := by
  refine ⟨⟨rfl, _, rfl⟩, fun s => ⟨fun he hk hmax hb ho => ?_, fun he => ?_, fun he hk => ?_, fun hk hmax => ?_,
    fun he hk hmax hb => ?_, fun he hk hmax hb ho => ?_⟩⟩
  · rw [exec_rsEnc_of_inBounds he hk hmax hb, if_neg (overlap_iff.not.mpr ho)]
    exact ⟨_, _, readsRegion_readBytes s _ _ s.draws, rfl, rfl, readBytes_draws_of_written _ _ _ _, rsec_length _ _,
      stores_of_cw_eq rfl⟩
  · rw [exec_rsEnc, if_pos he]
  · rw [exec_rsEnc, if_neg he, if_pos hk]
  · rw [exec_rsEnc, if_neg (by omega), if_neg hk, if_pos hmax]
  · rw [exec_rsEnc, if_neg he, if_neg hk, if_neg (Nat.not_lt.mpr hmax)]
    split_ifs with hD hE
    · rfl
    · rfl
    all_goals exact absurd ⟨inCw_ne_false_iff.mp hD, inCw_ne_false_iff.mp hE⟩ hb
  · rw [exec_rsEnc_of_inBounds he hk hmax hb, if_pos (overlap_iff.mpr ho)]

end Sys2Proof.Machine
end

section
/-! PROOFS. The BCH unit (44): its loop divides over GF(2), so `bch` is a remainder (44 R161); a code below its data
bits as a sum, under a power of two; the commands of the unit (44 R162 to R168). -/

namespace Sys2Proof.Machine

open Safety

/-! ## The length of a number in bits -/

theorem bitlen_of_ne_zero {q : Nat} (h : q ≠ 0) : bitlen q = q.log2 + 1 := if_neg h

theorem lt_two_pow_bitlen (q : Nat) : q < 2 ^ bitlen q := bitlen_le_iff.mp le_rfl

theorem testBit_bitlen_sub_one {q : Nat} (h : q ≠ 0) : q.testBit (bitlen q - 1) = true := by
  rw [bitlen_of_ne_zero h, Nat.add_sub_cancel, Nat.testBit_log2 h]

theorem bitlen_shiftLeft {q : Nat} (h : q ≠ 0) (i : Nat) : bitlen (q <<< i) = bitlen q + i := by
  induction i with
  | zero => rfl
  | succ i ih =>
    have hi : q <<< i ≠ 0 := by simp [Nat.shiftLeft_eq, h]
    have hsucc : q <<< (i + 1) = 2 * q <<< i := by rw [Nat.shiftLeft_add, Nat.shiftLeft_eq _ 1, pow_one, Nat.mul_comm]
    rw [hsucc, bitlen_of_ne_zero (by omega), Nat.log2_two_mul hi, ← bitlen_of_ne_zero hi, ih, Nat.add_assoc]

/-- The highest bits of two numbers of one length cancel. -/
theorem bitlen_xor_lt {q r : Nat} (hq : q ≠ 0) (h : bitlen q = bitlen r) : bitlen (q ^^^ r) < bitlen q := by
  have hpos := bitlen_of_ne_zero hq
  have hr : r ≠ 0 := by
    rintro rfl
    exact absurd (h.symm.trans hpos) (by simp [bitlen])
  suffices hlow : q ^^^ r < 2 ^ (bitlen q - 1) by
    have hle := bitlen_le_iff.mpr hlow
    omega
  refine Nat.lt_pow_two_of_testBit _ fun i hi => ?_
  rcases hi.eq_or_lt with rfl | hlt
  · rw [Nat.testBit_xor, testBit_bitlen_sub_one hq, h, testBit_bitlen_sub_one hr, Bool.xor_self]
  · have hxor := Nat.xor_lt_two_pow (lt_two_pow_bitlen q) (h ▸ lt_two_pow_bitlen r)
    exact Nat.testBit_lt_two_pow (hxor.trans_le (Nat.pow_le_pow_right two_pos (by omega)))

/-! ## The loop of 44 R160 -/

/-- One pass clears the highest bit. -/
theorem bitlen_bchPass_lt {p w : Nat} (hp : p ≠ 0) (h : bitlen p ≤ bitlen w) :
    bitlen (w ^^^ p <<< (bitlen w - bitlen p)) < bitlen w := by
  refine bitlen_xor_lt ?_ (by rw [bitlen_shiftLeft hp]; omega)
  rintro rfl
  exact absurd (bitlen_of_ne_zero hp ▸ h) (by simp [bitlen])

/-- As many passes as the bits of `w` are enough. -/
theorem bitlen_bchLoop_lt {p : Nat} (hp : p ≠ 0) {fuel w : Nat} (h : bitlen w ≤ fuel) :
    bitlen (bchLoop p fuel w) < bitlen p := by
  induction fuel generalizing w with
  | zero =>
    rw [bchLoop, bitlen_of_ne_zero hp]
    omega
  | succ fuel ih =>
    rw [bchLoop]
    split_ifs with hge
    · exact ih (Nat.le_of_lt_succ ((bitlen_bchPass_lt hp hge).trans_le h))
    · exact Nat.lt_of_not_le hge

/-- Adding a shifted `p` keeps the class modulo `p`. -/
theorem carrylessModEq_xor_shiftLeft (p w i : Nat) : CarrylessModEq p w (w ^^^ p <<< i) :=
  ⟨2 ^ i, by rw [carryless_two_pow_left, Nat.xor_comm w, Nat.xor_xor_cancel_left]⟩

theorem carrylessModEq_bchLoop (p fuel w : Nat) : CarrylessModEq p w (bchLoop p fuel w) := by
  induction fuel generalizing w with
  | zero => exact .refl _ _
  | succ fuel ih =>
    rw [bchLoop]
    split_ifs
    · exact (carrylessModEq_xor_shiftLeft _ _ _).trans (ih _)
    · exact .refl _ _

/-! ## The code -/

/-- The code of a generator of n + 1 bits has n bits (44 R161). -/
theorem bch_lt {p : Nat} (hp : p ≠ 0) (v : Nat) : bch v p < 2 ^ (bitlen p - 1) :=
  bitlen_le_iff.mp (Nat.le_sub_one_of_lt (bitlen_bchLoop_lt hp le_rfl))

theorem carrylessModEq_bch (v p : Nat) : CarrylessModEq p (v <<< (bitlen p - 1)) (bch v p) :=
  carrylessModEq_bchLoop _ _ _

theorem bitlen_fmtPoly : bitlen 0x537 = 11 := by decide

theorem bitlen_verPoly : bitlen 0x1F25 = 13 := by decide

/-- Settles O33: each pass of the loop adds a multiple of p and clears the highest bit. -/
theorem bchIsRemainder : Obligations.BchIsRemainder := by
  refine ⟨bitlen_fmtPoly, bitlen_verPoly, fun v p hp => ⟨bch_lt (Nat.one_le_iff_ne_zero.mp hp) v, ?_⟩⟩
  obtain ⟨q, hq⟩ := carrylessModEq_bch v p
  exact ⟨q, by rw [hq, Nat.xor_xor_cancel_right]⟩

/-! ## A code below its data bits -/

theorem bch_fmtPoly_lt (d : Nat) : bch d 0x537 < 2 ^ 10 := by
  simpa [bitlen_fmtPoly] using bch_lt (p := 0x537) (by decide) d

theorem bch_verPoly_lt (v : Nat) : bch v 0x1F25 < 2 ^ 12 := by
  simpa [bitlen_verPoly] using bch_lt (p := 0x1F25) (by decide) v

/-- Bits put above a shorter number are added to it. -/
theorem shiftLeft_or_eq {n c : Nat} (hc : c < 2 ^ n) (v : Nat) : v <<< n ||| c = v * 2 ^ n + c := by
  rw [← Nat.shiftLeft_add_eq_or_of_lt hc, Nat.shiftLeft_eq]

theorem mul_two_pow_add_lt {v m n c : Nat} (hv : v < 2 ^ m) (hc : c < 2 ^ n) : v * 2 ^ n + c < 2 ^ (m + n) :=
  calc v * 2 ^ n + c < (v + 1) * 2 ^ n := by rw [Nat.succ_mul]; omega
    _ ≤ 2 ^ m * 2 ^ n := Nat.mul_le_mul_right _ hv
    _ = 2 ^ (m + n) := (pow_add 2 m n).symm

/-- The data bits of the format word (44 R163). -/
theorem fmtData_eq {m : Nat} (hm : m ≤ 7) (c : Nat) : c <<< 3 ||| m = 8 * c + m := by
  rw [shiftLeft_or_eq (by omega)]
  omega

theorem fmtRaw_eq {m : Nat} (hm : m ≤ 7) (c : Nat) :
    fmtRaw c m = 1024 * (8 * c + m) + bch (8 * c + m) 0x537 := by
  rw [fmtRaw, fmtData_eq hm, shiftLeft_or_eq (bch_fmtPoly_lt _)]
  omega

theorem fmtRaw_lt {c m : Nat} (hc : c ≤ 3) (hm : m ≤ 7) : fmtRaw c m < 2 ^ 15 := by
  have hcode := bch_fmtPoly_lt (8 * c + m)
  rw [fmtRaw_eq hm]
  omega

theorem verWord_eq (v : Nat) : verWord v = 4096 * v + bch v 0x1F25 := by
  rw [verWord, shiftLeft_or_eq (bch_verPoly_lt _)]
  omega

/-! ## The commands: the checks in their order, each with its completion (60 R212 to R214) -/

section
variable (s : State)

theorem exec_bchCode : exec .bchCode s =
    if arg s 0 > 0xFFFF ∨ arg s 1 > 0xFFFF then .next (errState 0x02#8 s)
    else if arg s 1 = 0 then .next (errState 0x0B#8 s)
    else .next (okState { s with res := { s.res with
      res0 := resWord (bch (arg s 0) (arg s 1))
      res1 := resWord (arg s 0 <<< (bitlen (arg s 1) - 1) ||| bch (arg s 0) (arg s 1)) } }) := rfl

theorem exec_fmtInfo : exec .fmtInfo s =
    if arg s 0 > 3 ∨ arg s 1 > 7 then .next (errState 0x02#8 s)
    else .next (okState { s with res := { s.res with
      res0 := resWord (fmtWord (arg s 0) (arg s 1)), res1 := resWord (fmtRaw (arg s 0) (arg s 1))
      res2 := resWord (bch (arg s 0 <<< 3 ||| arg s 1) 0x537) } }) := rfl

theorem exec_verInfo : exec .verInfo s =
    if arg s 0 > 63 then .next (errState 0x02#8 s)
    else .next (okState { s with res := { s.res with
      res0 := resWord (verWord (arg s 0)), res1 := resWord (bch (arg s 0) 0x1F25) } }) := rfl

end

/-! ## The obligations -/

/-- Settles O20, by the branches of `exec_bchCode`; a generator below 2^16 gives a code of at most 15 bits. -/
theorem bchCodeResults : Obligations.BchCodeResults := by
  refine ⟨⟨rfl, _, rfl⟩, fun s => ?_⟩
  dsimp only
  rw [exec_bchCode]
  refine ⟨fun hv hpos hp => ?_, fun h => if_pos h, fun hv h0 => ?_⟩
  · have hcode := bch_lt (Nat.one_le_iff_ne_zero.mp hpos) (arg s 0)
    have hlen : bitlen (arg s 1) ≤ 16 := bitlen_le_iff.mpr (by omega)
    have hword := mul_two_pow_add_lt (v := arg s 0) (m := 16) (by omega) hcode
    rw [if_neg (by omega), if_neg (by omega), shiftLeft_or_eq hcode]
    exact ⟨rfl, hword.trans_le (Nat.pow_le_pow_right two_pos (by omega))⟩
  · rw [if_neg (by omega), if_pos h0]

/-- Settles O21, by the branches of `exec_fmtInfo` and `exec_verInfo`; the mask 0x5412 has 15 bits. -/
theorem formatAndVersionWords : Obligations.FormatAndVersionWords := by
  refine ⟨⟨rfl, _, rfl⟩, ⟨rfl, _, rfl⟩, fun s => ?_⟩
  rw [exec_fmtInfo, exec_verInfo]
  refine ⟨fun hc hm => ?_, fun h => if_pos h, fun hv => ?_, fun h => if_pos h⟩
  · have hraw := fmtRaw_lt hc hm
    rw [if_neg (by omega), fmtWord, fmtData_eq hm, fmtRaw_eq hm]
    rw [fmtRaw_eq hm] at hraw
    exact ⟨hraw, Nat.xor_lt_two_pow hraw (by decide), bch_fmtPoly_lt _, rfl⟩
  · have hcode := bch_verPoly_lt (arg s 0)
    rw [if_neg (by omega), verWord_eq]
    exact ⟨by omega, hcode, rfl⟩

end Sys2Proof.Machine
end

section
/-! PROOFS. The matrix's cells and the mask formulas (45 R181 to R186): MX_CLEAR, MX_SET, MX_GET and MX_MASKBIT as their
outcomes in the order of their checks. -/

namespace Sys2Proof.Machine

open Safety

/-! ## Cell codes (45 R181) -/

theorem cellOfCode_cellCode (c : MxCell) : cellOfCode (cellCode c) = some c := by cases c <;> rfl

theorem exists_cellCode_eq {n : Nat} (h : n = 0 ∨ n = 1 ∨ n = 3) : ∃ c, cellCode c = n := by
  rcases h with rfl | rfl | rfl
  exacts [⟨.light, rfl⟩, ⟨.dark, rfl⟩, ⟨.unset, rfl⟩]

theorem cellOfCode_eq_none : ∀ {n : Nat}, n ≠ 0 → n ≠ 1 → n ≠ 3 → cellOfCode n = none
  | 0, h, _, _ => absurd rfl h
  | 1, _, h, _ => absurd rfl h
  | 2, _, _, _ => rfl
  | 3, _, _, h => absurd rfl h
  | _ + 4, _, _, _ => rfl

/-! ## The commands: the checks in their order, each with its completion (60 R212 to R214) -/

section
variable (s : State)

theorem exec_mxClear : exec .mxClear s =
    if arg s 0 < 1 ∨ arg s 0 > 40 then .next (errState 0x02#8 s)
    else .next (okState { s with
      mxVer := arg s 0
      grid := List.replicate (17 + 4 * arg s 0) (List.replicate (17 + 4 * arg s 0) .unset) }) := rfl

/-- MX_SET with the code of a cell value. -/
theorem exec_mxSet_code {c : MxCell} (h : cellCode c = arg s 2) : exec .mxSet s =
    if s.mxVer = 0 then .next (errState 0x0E#8 s)
    else if arg s 0 ≥ mxDim s ∨ arg s 1 ≥ mxDim s then .next (errState 0x0F#8 s)
    else .next (okState { s with grid := setCell s.grid (arg s 0) (arg s 1) c }) := by
  change execMxSet s = _
  rw [execMxSet, ← h, cellOfCode_cellCode]
  rfl

/-- MX_SET with an operand that is no code. -/
theorem exec_mxSet_noCode (h : cellOfCode (arg s 2) = none) : exec .mxSet s = .next (errState 0x02#8 s) := by
  change execMxSet s = _
  rw [execMxSet, h]
  rfl

theorem exec_mxGet : exec .mxGet s =
    if s.mxVer = 0 then .next (errState 0x0E#8 s)
    else if arg s 0 ≥ mxDim s ∨ arg s 1 ≥ mxDim s then .next (errState 0x0F#8 s)
    else .next (okState { s with
      res := { s.res with res0 := resWord (cellCode (cellAt s.grid (arg s 0) (arg s 1))) } }) := rfl

theorem exec_mxMaskbit : exec .mxMaskbit s =
    if arg s 0 > 7 ∨ arg s 1 > 176 ∨ arg s 2 > 176 then .next (errState 0x02#8 s)
    else .next (okState { s with
      res := { s.res with res0 := resWord (maskbit (arg s 0) (arg s 1) (arg s 2)).toNat } }) := rfl

end

/-! ## The obligations -/

/-- Settles O22, by the branches of `exec_mxClear`. -/
theorem mxClearStartsMatrix : Obligations.MxClearStartsMatrix := by
  refine ⟨⟨rfl, _, rfl⟩, fun s => ?_⟩
  rw [exec_mxClear]
  exact ⟨fun h1 h40 => ⟨_, if_neg (by omega), rfl, mxDim_of_ne_zero (Nat.one_le_iff_ne_zero.mp h1)⟩,
    fun h => if_pos h⟩

/-- Settles O23, by the branches of MX_SET; the cell and its frame are those of `setCell` on a square grid. -/
theorem mxSetWritesOneCell : Obligations.MxSetWritesOneCell := by
  refine ⟨⟨rfl, _, rfl⟩, fun s ⟨hver, hsquare⟩ => ⟨fun c hc hv hx hy => ?_,
    fun h0 h1 h3 => exec_mxSet_noCode s (cellOfCode_eq_none h0 h1 h3), fun hcode hv => ?_, fun hcode hv hxy => ?_⟩⟩
  · have hexec := exec_mxSet_code s hc
    rw [if_neg hv, if_neg (by omega)] at hexec
    exact ⟨_, hexec, rfl, ⟨hver, square_setCell hsquare _ _ c⟩, cellAt_setCell_same hsquare hx hy c,
      fun x y hne => cellAt_setCell_other _ c fun ⟨hx, hy⟩ => hne (hx ▸ hy ▸ rfl)⟩
  · obtain ⟨c, hc⟩ := exists_cellCode_eq hcode
    rw [exec_mxSet_code s hc, if_pos hv]
  · obtain ⟨c, hc⟩ := exists_cellCode_eq hcode
    rw [exec_mxSet_code s hc, if_neg hv, if_pos hxy]

/-- Settles O24, by the branches of `exec_mxGet` and `exec_mxMaskbit`. -/
theorem mxGetAndMaskbit : Obligations.MxGetAndMaskbit := by
  refine ⟨⟨rfl, _, rfl⟩, ⟨rfl, _, rfl⟩, fun s => ?_⟩
  rw [exec_mxGet, exec_mxMaskbit]
  refine ⟨fun hv hx hy => ?_, fun hv => if_pos hv, fun hv hxy => ?_, fun hm hx hy => ?_, fun h => if_pos h⟩
  · rw [if_neg hv, if_neg (by omega)]
    cases cellAt s.grid (arg s 0) (arg s 1) <;> rfl
  · rw [if_neg hv, if_pos hxy]
  · rw [if_neg (by omega), resWord_toNat_bool]

theorem maskbit_iff (m x y : Nat) : maskbit m x y = true ↔ maskFormula m x y = 0 := decide_eq_true_iff

/-- Mask 5's sum of two remainders is 0 exactly when both are (45 R185). -/
theorem maskFormula_five (x y : Nat) : maskFormula 5 x y = 0 ↔ x * y % 6 = 0 := by
  change x * y % 2 + x * y % 3 = 0 ↔ _
  omega

/-- Settles O34: each clause is `maskFormula`'s row, but for mask 5. -/
theorem maskFormulas : Obligations.MaskFormulas := by
  intro x y
  simp only [maskbit_iff]
  exact ⟨.rfl, .rfl, .rfl, .rfl, .rfl, maskFormula_five x y, .rfl, .rfl⟩

end Sys2Proof.Machine
end

section
/-! PROOFS. Counts of cells as sizes of sets of places, and with them penalty rules 2 and 4 (45 R193, R195). -/

namespace Sys2Proof.Machine

open Safety

/-! ## Counts of cells -/

theorem countP_range_eq_card (p : Nat → Bool) (n : Nat) :
    (List.range n).countP p = ((Finset.range n).filter fun i => p i = true).card := by
  simpa [Nat.count] using Nat.count_eq_card_filter_range (fun i => p i = true) n

theorem countCells_eq_card (w h : Nat) (p : Nat → Nat → Bool) :
    countCells w h p = ((Finset.range w ×ˢ Finset.range h).filter fun q => p q.1 q.2 = true).card := by
  rw [Finset.card_filter, Finset.sum_product_right]
  simp only [← Finset.card_filter, ← countP_range_eq_card]
  rfl

/-- A count of cells by any property that its test decides within the bounds. -/
theorem countCells_eq_card_of_iff {w h : Nat} {p : Nat → Nat → Bool} {P : Nat × Nat → Prop} [DecidablePred P]
    (hp : ∀ x < w, ∀ y < h, p x y = true ↔ P (x, y)) :
    countCells w h p = ((Finset.range w ×ˢ Finset.range h).filter P).card := by
  rw [countCells_eq_card]
  refine congrArg Finset.card (Finset.filter_congr fun q hq => ?_)
  rw [Finset.mem_product, Finset.mem_range, Finset.mem_range] at hq
  exact hp _ hq.1 _ hq.2

theorem countCells_le (w h : Nat) (p : Nat → Nat → Bool) : countCells w h p ≤ w * h := by
  rw [countCells_eq_card]
  exact (Finset.card_filter_le _ _).trans (by simp)

/-! ## Penalty rules 2 and 4 -/

theorem uniformBlock_iff (g : List (List MxCell)) (x y : Nat) : uniformBlock g x y = true ↔
    cellAt g x y = cellAt g (x + 1) y ∧ cellAt g x y = cellAt g x (y + 1)
      ∧ cellAt g x y = cellAt g (x + 1) (y + 1) := by
  simp [uniformBlock, and_assoc]

theorem darkCount_eq_card (g : List (List MxCell)) (N : Nat) : darkCount g N =
    ((Finset.range N ×ˢ Finset.range N).filter fun q => cellAt g q.1 q.2 = .dark).card :=
  countCells_eq_card_of_iff fun _ _ _ _ => decide_eq_true_iff

/-- At most all cells are dark, so the balance is at most ten tenths (45 R195). -/
theorem penalty4_le (g : List (List MxCell)) (N : Nat) : penalty4 g N ≤ 100 := by
  have hD : darkCount g N ≤ N * N := countCells_le _ _ _
  refine Nat.mul_le_mul_left 10 (Nat.div_le_of_le_mul ?_ : _ ≤ 10)
  omega

/-- Settles O37, by counting the windows and the dark cells as sets. -/
theorem penaltiesTwoAndFour : Obligations.PenaltiesTwoAndFour := by
  intro g N _
  refine ⟨?_, ⟨_, _, rfl, rfl, ?_⟩, penalty4_le g N, Dvd.intro _ rfl⟩
  · exact congrArg (3 * ·) (countCells_eq_card_of_iff fun x _ y _ => uniformBlock_iff g x y)
  · rw [penalty4, darkCount_eq_card, Nat.cast_mul]
    rfl

end Sys2Proof.Machine
end

section
/-! PROOFS. The placement traversal (45 R187) pair by pair, and U as the number of UNSET cells it visits (45 R189). -/

namespace Sys2Proof.Machine

open Safety

theorem dim_odd (v : Nat) : dim v % 2 = 1 := by unfold dim; omega

theorem seven_le_dim (v : Nat) : 7 ≤ dim v := by unfold dim; omega

/-! ## The column pairs in order -/

/-- The loop variable x of 45 R187 at the start of pass `p`, column 6 not yet skipped. -/
def passColumn (N p : Nat) : Nat := if N - 1 - 2 * p ≥ 6 then N - 1 - 2 * p else N - 2 - 2 * p

/-- The right column of pair `p`. -/
def pairColumn (N p : Nat) : Nat := if N - 1 - 2 * p > 6 then N - 1 - 2 * p else N - 2 - 2 * p

theorem pairColumn_eq (N p : Nat) : (if passColumn N p = 6 then 5 else passColumn N p) = pairColumn N p := by
  unfold passColumn pairColumn
  split_ifs <;> omega

theorem passColumn_succ {N : Nat} (hN : N % 2 = 1) (p : Nat) : passColumn N (p + 1) = pairColumn N p - 2 := by
  unfold passColumn pairColumn
  split_ifs <;> omega

theorem passColumn_eq_zero_iff {N : Nat} (hN : N % 2 = 1) (p : Nat) : passColumn N p = 0 ↔ N - 1 ≤ 2 * p := by
  unfold passColumn
  split_ifs <;> omega

theorem not_decide_even (p : Nat) : (!decide (p % 2 = 0)) = decide ((p + 1) % 2 = 0) := by
  rw [← decide_not]
  exact decide_eq_decide.mpr (by omega)

/-- The loop from pass `p` on, with `n` passes to go. -/
theorem traverseFrom_eq_flatMap {N : Nat} (hN : N % 2 = 1) (n p fuel : Nat) (hp : 2 * (p + n) = N - 1)
    (hf : n ≤ fuel) : traverseFrom N fuel (passColumn N p) (decide (p % 2 = 0)) =
      (List.range' p n).flatMap fun q => columnPair N (pairColumn N q) (decide (q % 2 = 0)) := by
  induction n generalizing p fuel with
  | zero =>
    have hend : passColumn N p = 0 := (passColumn_eq_zero_iff hN p).mpr (by omega)
    cases fuel <;> simp [traverseFrom, hend]
  | succ n ih =>
    obtain ⟨fuel, rfl⟩ : ∃ m, fuel = m + 1 := ⟨fuel - 1, by omega⟩
    have hmore : passColumn N p ≠ 0 := (passColumn_eq_zero_iff hN p).not.mpr (by omega)
    rw [traverseFrom, if_neg hmore]
    dsimp only
    rw [pairColumn_eq, ← passColumn_succ hN, not_decide_even, List.range'_succ, List.flatMap_cons,
      ih (p + 1) fuel (by omega) (by omega)]

theorem traverse_eq_flatMap (v : Nat) : traverse (dim v) =
    (List.range ((dim v - 1) / 2)).flatMap fun p => columnPair (dim v) (pairColumn (dim v) p) (decide (p % 2 = 0)) := by
  have hodd := dim_odd v
  have h7 := seven_le_dim v
  have hstart : passColumn (dim v) 0 = dim v - 1 := if_pos (by omega)
  rw [List.range_eq_range', ← traverseFrom_eq_flatMap hodd _ 0 (dim v) (by omega) (by omega), hstart]
  rfl

/-! ## Each step of the traversal -/

/-- Element `j` of block `i`, in a list of blocks of length `m`. -/
theorem getElem?_flatMap_of_length {α β : Type} {f : α → List β} {m : Nat} (l : List α)
    (h : ∀ a ∈ l, (f a).length = m) {i j : Nat} {a : α} (hi : l[i]? = some a) (hj : j < m) :
    (l.flatMap f)[m * i + j]? = (f a)[j]? := by
  induction l generalizing i with
  | nil => simp at hi
  | cons b l ih =>
    have hb : (f b).length = m := h b List.mem_cons_self
    cases i with
    | zero =>
      obtain rfl : b = a := by simpa using hi
      rw [List.flatMap_cons, Nat.mul_zero, Nat.zero_add, List.getElem?_append_left (hb ▸ hj)]
    | succ i =>
      have hij : m * (i + 1) + j = m + (m * i + j) := by ring
      rw [List.flatMap_cons, hij, List.getElem?_append_right (by omega), hb, Nat.add_sub_cancel_left]
      exact ih (fun a ha => h a (List.mem_cons_of_mem b ha)) hi

theorem columnPair_length (N x : Nat) (up : Bool) : (columnPair N x up).length = 2 * N := by
  cases up <;> simp [columnPair, List.length_flatMap, Nat.mul_comm]

theorem columnPair_getElem? {N r c : Nat} (hr : r < N) (hc : c < 2) (x : Nat) (up : Bool) :
    (columnPair N x up)[2 * r + c]? = some (x - c, if up then N - 1 - r else r) := by
  have hrow : (if up then (List.range N).reverse else List.range N)[r]? = some (if up then N - 1 - r else r) := by
    cases up <;> simp [hr]
  rw [columnPair, getElem?_flatMap_of_length (m := 2) _ (fun _ _ => rfl) hrow hc]
  interval_cases c <;> rfl

/-- Step 2(N p + r) + c of the traversal is column `c` of pair `p` in the pair's `r`-th row (45 R187). -/
theorem traverse_getElem? {v p r c : Nat} (hp : p < (dim v - 1) / 2) (hr : r < dim v) (hc : c < 2) :
    (traverse (dim v))[2 * (dim v * p + r) + c]? =
      some (pairColumn (dim v) p - c, if p % 2 = 0 then dim v - 1 - r else r) := by
  have hpair : (List.range ((dim v - 1) / 2))[p]? = some p := List.getElem?_range hp
  have hstep : 2 * (dim v * p + r) + c = 2 * dim v * p + (2 * r + c) := by ring
  rw [traverse_eq_flatMap, hstep, getElem?_flatMap_of_length _ (fun _ _ => columnPair_length _ _ _) hpair (by omega),
    columnPair_getElem? hr hc]
  simp only [decide_eq_true_eq]

theorem traverse_length (v : Nat) : (traverse (dim v)).length = dim v * (dim v - 1) := by
  have hodd := dim_odd v
  have hhalf : (dim v - 1) / 2 * 2 = dim v - 1 := by omega
  rw [traverse_eq_flatMap, List.length_flatMap]
  simp only [columnPair_length, List.map_const', List.length_range, List.sum_replicate, smul_eq_mul]
  rw [← Nat.mul_assoc, hhalf, Nat.mul_comm]

/-! ## The cells visited -/

theorem mem_columnPair_iff {N c x y : Nat} {up : Bool} :
    (x, y) ∈ columnPair N c up ↔ (x = c ∨ x = c - 1) ∧ y < N := by
  refine ⟨mem_columnPair, fun ⟨hx, hy⟩ => List.mem_flatMap.mpr ⟨y, ?_, by simpa using hx⟩⟩
  cases up <;> simpa using hy

theorem mem_traverse_iff {v x y : Nat} : (x, y) ∈ traverse (dim v) ↔ x < dim v ∧ y < dim v ∧ x ≠ 6 := by
  refine ⟨fun h => ?_, fun ⟨hx, hy, h6⟩ => ?_⟩
  · obtain ⟨h6, hx, hy⟩ := mem_traverse h
    exact ⟨hx, hy, h6⟩
  · have hodd := dim_odd v
    have h7 := seven_le_dim v
    rw [traverse_eq_flatMap, List.mem_flatMap]
    refine ⟨if 6 < x then (dim v - 1 - x) / 2 else (dim v - 2 - x) / 2, ?_, mem_columnPair_iff.mpr ⟨?_, hy⟩⟩
    · rw [List.mem_range]
      split_ifs <;> omega
    · unfold pairColumn
      split_ifs <;> omega

theorem traverse_toFinset (v : Nat) :
    (traverse (dim v)).toFinset = (Finset.range (dim v)).erase 6 ×ˢ Finset.range (dim v) := by
  ext ⟨x, y⟩
  simp only [List.mem_toFinset, mem_traverse_iff, Finset.mem_product, Finset.mem_erase, Finset.mem_range]
  tauto

/-- No cell is visited twice: there are as many steps as cells visited. -/
theorem traverse_nodup (v : Nat) : (traverse (dim v)).Nodup := by
  have h6 : 6 ∈ Finset.range (dim v) := Finset.mem_range.mpr (seven_le_dim v)
  have hcard : (traverse (dim v)).toFinset.card = (traverse (dim v)).length := by
    rw [traverse_toFinset, traverse_length, Finset.card_product, Finset.card_erase_of_mem h6, Finset.card_range,
      Nat.mul_comm]
  exact Multiset.coe_nodup.mp (Multiset.toFinset_card_eq_card_iff_nodup.mp hcard)

/-! ## The capacity U (45 R189) -/

/-- How many of the cells listed are UNSET. -/
def unsetCount (g : List (List MxCell)) (l : List (Nat × Nat)) : Nat :=
  l.countP fun p => decide (cellAt g p.1 p.2 = .unset)

theorem fillable_eq_card (g : List (List MxCell)) (N : Nat) : fillable g N =
    ((Finset.range N ×ˢ Finset.range N).filter fun p => p.1 ≠ 6 ∧ cellAt g p.1 p.2 = .unset).card :=
  countCells_eq_card_of_iff fun x _ y _ => by simp

theorem fillable_eq_unsetCount (g : List (List MxCell)) (v : Nat) :
    fillable g (dim v) = unsetCount g (traverse (dim v)) := by
  rw [fillable_eq_card, unsetCount, List.countP_eq_length_filter,
    ← List.toFinset_card_of_nodup ((traverse_nodup v).filter _)]
  congr 1
  ext ⟨x, y⟩
  simp only [List.mem_toFinset, List.mem_filter, mem_traverse_iff, Finset.mem_filter, Finset.mem_product,
    Finset.mem_range, decide_eq_true_iff]
  tauto

/-- Settles O35, by the traversal's closed form `traverse_eq_flatMap`. -/
theorem traversalOrderAndCapacity : Obligations.TraversalOrderAndCapacity := fun v _ _ =>
  ⟨fun _ hp _ hr _ hc => traverse_getElem? hp hr hc, traverse_length v, traverse_nodup v, fun _ _ => mem_traverse_iff,
    fun g => ⟨fillable_eq_card g _, fillable_eq_unsetCount g v⟩⟩

end Sys2Proof.Machine
end

section
/-! PROOFS. Placement (45 R188 to R191): which bit of the stream each UNSET cell of the traversal gets, and MX_PLACE. -/

namespace Sys2Proof.Machine

open Safety

/-! ## The bits placed -/

theorem unsetCount_congr {g g' : List (List MxCell)} {l : List (Nat × Nat)}
    (h : ∀ p ∈ l, cellAt g p.1 p.2 = cellAt g' p.1 p.2) : unsetCount g l = unsetCount g' l :=
  List.countP_congr fun p hp => by rw [h p hp]

theorem unsetCount_cons (g : List (List MxCell)) (p : Nat × Nat) (l : List (Nat × Nat)) :
    unsetCount g (p :: l) = unsetCount g [p] + unsetCount g l := List.countP_append (l₁ := [p])

theorem cellOfBit_ne_unset (b : Bool) : cellOfBit b ≠ .unset := by cases b <;> decide

/-- A step consumes one bit at an UNSET cell and none at any other (45 R188). -/
theorem placeStep_bits (mask : Option Nat) (st : List (List MxCell) × Bits) (p : Nat × Nat) :
    (placeStep mask st p).2 = st.2.drop (unsetCount st.1 [p]) := by
  unfold placeStep unsetCount
  split_ifs with h <;> simp [h]

/-- A step that visits an UNSET cell gives it the next bit (45 R188, R190). -/
theorem cellAt_placeStep_unset {N : Nat} {mask : Option Nat} {st : List (List MxCell) × Bits} {x y : Nat}
    (hg : Square N st.1) (hx : x < N) (hy : y < N) (hu : cellAt st.1 x y = .unset) :
    cellAt (placeStep mask st (x, y)).1 x y = cellOfBit (maskedBit mask x y (st.2.headD false)) := by
  rw [placeStep, if_pos hu]
  exact cellAt_setCell_same hg hx hy _

/-- An UNSET cell gets the bit whose index is the number of UNSET cells visited before it, 0 past the end of the stream
(45 R188, R190). -/
theorem cellAt_foldl_placeStep_unset {N : Nat} {mask : Option Nat} {l : List (Nat × Nat)} {x y k : Nat}
    {st : List (List MxCell) × Bits} (hg : Square N st.1) (hx : x < N) (hy : y < N) (hl : l.Nodup)
    (hk : l[k]? = some (x, y)) (hu : cellAt st.1 x y = .unset) :
    cellAt (l.foldl (placeStep mask) st).1 x y =
      cellOfBit (maskedBit mask x y (st.2.getD (unsetCount st.1 (l.take k)) false)) := by
  induction l generalizing st k with
  | nil => simp at hk
  | cons p l ih =>
    obtain ⟨hp, hl⟩ := List.nodup_cons.mp hl
    cases k with
    | zero =>
      obtain rfl : p = (x, y) := by simpa using hk
      have hset := cellAt_placeStep_unset (mask := mask) hg hx hy hu
      rw [List.foldl_cons, cellAt_foldl_placeStep l (.inl (hset ▸ cellOfBit_ne_unset _)), hset]
      cases st.2 <;> rfl
    | succ k =>
      rw [List.getElem?_cons_succ] at hk
      have hlater : ∀ q ∈ l, cellAt (placeStep mask st p).1 q.1 q.2 = cellAt st.1 q.1 q.2 :=
        fun q hq => cellAt_placeStep (.inr fun h => hp (h ▸ hq))
      have hu' := (hlater _ (List.mem_of_getElem? hk)).trans hu
      have hcount : unsetCount (placeStep mask st p).1 (l.take k) = unsetCount st.1 (l.take k) :=
        unsetCount_congr fun q hq => hlater q (List.mem_of_mem_take hq)
      rw [List.foldl_cons, ih (square_placeStep hg p) hl hk hu', hcount, placeStep_bits, List.take_succ_cons,
        unsetCount_cons _ p (l.take k), List.getD_eq_getElem?_getD, List.getElem?_drop, List.getD_eq_getElem?_getD]

/-! ## The mask operand (45 R190, R191) -/

theorem exists_maskOperand_eq_some {a : Nat} (h : a ≤ 7 ∨ a = 0xFFFFFFFF) : ∃ mask, maskOperand a = some mask ∧
    ∀ x y b, maskedBit mask x y b = xor b (decide (a ≤ 7 ∧ maskbit a x y = true)) := by
  unfold maskOperand
  by_cases h7 : a ≤ 7
  · exact ⟨some a, if_pos h7, fun x y b => by simp [maskedBit, h7]⟩
  · rw [if_neg h7, if_pos (h.resolve_left h7)]
    exact ⟨none, rfl, fun x y b => by simp [maskedBit, h7]⟩

theorem maskOperand_eq_none {a : Nat} (h : ¬(a ≤ 7 ∨ a = 0xFFFFFFFF)) : maskOperand a = none := by
  obtain ⟨h7, hnone⟩ := not_or.mp h
  rw [maskOperand, if_neg h7, if_neg hnone]

/-! ## The command -/

theorem exec_mxPlace_mask (b : Buf) {s : State} {mask : Option Nat} (h : maskOperand (arg s 0) = some mask) :
    exec (.mxPlace b) s =
      if s.mxVer = 0 then .next (errState 0x0E#8 s)
      else if (bs s b).length > fillable s.grid (mxDim s) then .next (errState 0x10#8 s)
      else .next (okState { s with
        grid := place mask (mxDim s) s.grid (bs s b)
        res := { s.res with
          res0 := resWord (bs s b).length
          res1 := resWord (fillable s.grid (mxDim s) - (bs s b).length)
          res2 := resWord (fillable s.grid (mxDim s)) } }) := by
  change execMxPlace b s = _
  rw [execMxPlace, h]
  rfl

theorem exec_mxPlace_noMask (b : Buf) {s : State} (h : maskOperand (arg s 0) = none) :
    exec (.mxPlace b) s = .next (errState 0x02#8 s) := by
  change execMxPlace b s = _
  rw [execMxPlace, h]
  rfl

/-- Settles O25, by the branches of MX_PLACE; `cellAt_foldl_placeStep_unset` gives the bit of each UNSET cell visited, and
`cellAt_place_other` the frame. -/
theorem mxPlaceFillsUnsetCells : Obligations.MxPlaceFillsUnsetCells := by
  refine ⟨selWords_of_encode rfl rfl, fun b s ⟨hver, hsquare⟩ => ?_⟩
  dsimp only
  refine ⟨fun hm hv hL => ?_, fun hm => exec_mxPlace_noMask b (maskOperand_eq_none hm), fun hm hv => ?_,
    fun hm hv hL => ?_⟩
  all_goals obtain ⟨mask, hmask, hbit⟩ := exists_maskOperand_eq_some hm
  · have hexec := exec_mxPlace_mask b hmask
    have hdim : mxDim s = dim s.mxVer := mxDim_of_ne_zero hv
    rw [if_neg hv, if_neg (by omega), hdim] at hexec
    rw [hdim] at hsquare ⊢
    refine ⟨_, hexec, rfl, ⟨hver, hdim ▸ square_place hsquare _⟩, fun k x y hk hu => ?_, fun x y hxy => ?_⟩
    · obtain ⟨-, hx, hy⟩ := mem_traverse (List.mem_of_getElem? hk)
      rw [← hbit]
      exact cellAt_foldl_placeStep_unset hsquare hx hy (traverse_nodup _) hk hu
    · exact cellAt_place_other _ fun ⟨hu, h6, hx, hy⟩ => hxy.elim (· hu) (by omega)
  · rw [exec_mxPlace_mask b hmask, if_pos hv]
  · rw [exec_mxPlace_mask b hmask, if_neg hv, if_pos hL]

end Sys2Proof.Machine
end

section
/-! PROOFS. Penalty rules 1 and 3 (45 R192, R194), and MX_SCORE with the bounds of its results (45 R196). -/

namespace Sys2Proof.Machine

open Safety

/-! ## Penalty rule 1 -/

/-- The loop of `List.splitBy` closes the runs that `runsFrom` counts: `run` holds the cells of the open run before its
last cell `c`, and `closed` the runs before it. -/
theorem length_splitBy_loop (l : List MxCell) (c : MxCell) (run : List MxCell) (closed : List (List MxCell)) :
    (List.splitBy.loop (· == ·) l c run closed).map List.length =
      closed.reverse.map List.length ++ runsFrom c (run.length + 1) l := by
  induction l generalizing c run closed with
  | nil => simp [List.splitBy.loop, runsFrom]
  | cons d l ih =>
    by_cases hd : c = d
    · subst hd
      simp [List.splitBy.loop, runsFrom, ih]
    · have hbeq : (c == d) = false := beq_false_of_ne hd
      simp [List.splitBy.loop, runsFrom, ih, hbeq, Ne.symm hd]

theorem runs_eq_splitBy (l : List MxCell) : runs l = (l.splitBy (· == ·)).map List.length := by
  cases l with
  | nil => rfl
  | cons c l => exact (length_splitBy_loop l c [] []).symm

/-- Settles O36: the runs are those of `List.splitBy`, and the sum over rows and columns is one sum over their lines. -/
theorem penaltyOneScoresMaximalRuns : Obligations.PenaltyOneScoresMaximalRuns := by
  refine ⟨runs_eq_splitBy, fun _ => rfl, fun g N => ?_⟩
  change _ = List.foldl (fun acc l => acc + linePenalty l) 0 _
  rw [← List.foldl_map (f := linePenalty), ← List.sum_eq_foldl, List.map_append, List.sum_append, List.map_map,
    List.map_map]
  rfl

theorem runPenalty_le (r : Nat) : runPenalty r ≤ r - 2 := by
  unfold runPenalty
  split_ifs <;> omega

theorem sum_runPenalty_runsFrom_le (c : MxCell) (r : Nat) (l : List MxCell) :
    ((runsFrom c r l).map runPenalty).sum ≤ r + l.length - 2 := by
  induction l generalizing c r with
  | nil => simpa [runsFrom] using runPenalty_le r
  | cons d l ih =>
    rw [runsFrom, List.length_cons]
    split_ifs
    · have hmore := ih c (r + 1)
      omega
    · have hrun := runPenalty_le r
      have hrest := ih d 1
      rw [List.map_cons, List.sum_cons]
      omega

theorem linePenalty_le (l : List MxCell) : linePenalty l ≤ l.length - 2 := by
  cases l with
  | nil => exact Nat.zero_le _
  | cons c l =>
    rw [List.length_cons, Nat.add_comm]
    exact sum_runPenalty_runsFrom_le c 1 l

theorem sum_linePenalty_le {N : Nat} {line : Nat → List MxCell} (h : ∀ i, (line i).length = N) :
    ((List.range N).map fun i => linePenalty (line i)).sum ≤ N * (N - 2) := by
  have hle := List.sum_le_card_nsmul ((List.range N).map fun i => linePenalty (line i)) (N - 2) <|
    List.forall_mem_map.mpr fun i _ => h i ▸ linePenalty_le (line i)
  simpa using hle

theorem penalty1_le (g : List (List MxCell)) (N : Nat) : penalty1 g N ≤ 2 * (N * (N - 2)) := by
  have hrows := sum_linePenalty_le (N := N) (line := rowLine g N) fun _ => by simp [rowLine]
  have hcols := sum_linePenalty_le (N := N) (line := colLine g N) fun _ => by simp [colLine]
  unfold penalty1
  omega

/-! ## Penalty rule 3 -/

/-- The pattern of 45 R194 at place `i` of a line of `N` cells, with four light cells before it or after it, a place
outside the line counting as light. -/
def FinderAt (N : Nat) (line : Nat → MxCell) (i : Nat) : Prop :=
  (∀ k < 7, line (i + k) = if k = 1 ∨ k = 5 then .light else .dark)
    ∧ ((∀ k < 4, i + k < 4 ∨ line (i + k - 4) = .light) ∨ ∀ k < 4, N ≤ i + 7 + k ∨ line (i + 7 + k) = .light)

theorem finderPattern_getD : ∀ k < 7, finderPattern.getD k .unset = if k = 1 ∨ k = 5 then .light else .dark := by
  decide

theorem lightAt_row_iff (g : List (List MxCell)) {N y : Nat} (hy : y < N) (j : Int) :
    lightAt g N j y = true ↔ j < 0 ∨ (N : Int) ≤ j ∨ cellAt g j.toNat y = .light := by
  have hin : ¬((y : Int) < 0) ∧ ¬((N : Int) ≤ y) := by omega
  simp [lightAt, or_assoc, hin]

theorem lightAt_col_iff (g : List (List MxCell)) {N x : Nat} (hx : x < N) (j : Int) :
    lightAt g N x j = true ↔ j < 0 ∨ (N : Int) ≤ j ∨ cellAt g x j.toNat = .light := by
  have hin : ¬((x : Int) < 0) ∧ ¬((N : Int) ≤ x) := by omega
  simp [lightAt, or_assoc, hin]

/-- The test that `finderRow` and `finderCol` make, along any line of cells. -/
theorem finderTest_iff {N i : Nat} {line : Nat → MxCell} {light : Int → Bool} (hi : i < N)
    (hlight : ∀ j : Int, light j = true ↔ j < 0 ∨ (N : Int) ≤ j ∨ line j.toNat = .light) :
    (((List.range 7).all fun k => decide (line (i + k) = finderPattern.getD k .unset))
      && (((List.range 4).all fun k => light ((i : Int) - 4 + k))
        || ((List.range 4).all fun k => light ((i : Int) + 7 + k)))) = true ↔ FinderAt N line i := by
  simp only [Bool.and_eq_true, Bool.or_eq_true, List.all_eq_true, List.mem_range, decide_eq_true_iff, hlight]
  refine and_congr (forall₂_congr fun k hk => by rw [finderPattern_getD k hk])
    (or_congr (forall₂_congr fun k hk => ?_) (forall₂_congr fun k hk => ?_))
  · rw [show ((i : Int) - 4 + k).toNat = i + k - 4 by omega, ← or_assoc]
    exact or_congr_left (by omega)
  · rw [show ((i : Int) + 7 + k).toNat = i + 7 + k by omega, ← or_assoc]
    exact or_congr_left (by omega)

theorem finderRow_iff {g : List (List MxCell)} {N x y : Nat} (hx : x < N) (hy : y < N) :
    finderRow g N x y = true ↔ FinderAt N (fun i => cellAt g i y) x :=
  finderTest_iff (line := fun i => cellAt g i y) hx (lightAt_row_iff g hy)

theorem finderCol_iff {g : List (List MxCell)} {N x y : Nat} (hx : x < N) (hy : y < N) :
    finderCol g N x y = true ↔ FinderAt N (fun i => cellAt g x i) y :=
  finderTest_iff (line := fun i => cellAt g x i) hy (lightAt_col_iff g hx)

/-- Settles O38, by counting the places of `finderRow_iff` and `finderCol_iff` as sets. -/
theorem penaltyThreeFinderLikePatterns : Obligations.PenaltyThreeFinderLikePatterns := fun _ _ _ =>
  congrArg₂ (40 * · + 40 * ·)
    (countCells_eq_card_of_iff fun _ hx _ hy => finderRow_iff (by omega) hy)
    (countCells_eq_card_of_iff fun _ hx _ hy => finderCol_iff hx (by omega))

/-! ## The score -/

theorem penalty2_le (g : List (List MxCell)) (N : Nat) : penalty2 g N ≤ 3 * ((N - 1) * (N - 1)) :=
  Nat.mul_le_mul_left 3 (countCells_le _ _ _)

theorem penalty3_le (g : List (List MxCell)) (N : Nat) : penalty3 g N ≤ 80 * (N * (N - 6)) := by
  have hrows := countCells_le (N - 6) N (finderRow g N)
  have hcols := countCells_le N (N - 6) (finderCol g N)
  rw [Nat.mul_comm] at hrows
  unfold penalty3
  omega

theorem someUnset_iff (g : List (List MxCell)) (N : Nat) :
    someUnset g N = true ↔ ∃ x < N, ∃ y < N, cellAt g x y = .unset := by
  simp only [someUnset, List.any_eq_true, List.mem_range, decide_eq_true_iff]
  exact ⟨fun ⟨y, hy, x, hx, h⟩ => ⟨x, hx, y, hy, h⟩, fun ⟨x, hx, y, hy, h⟩ => ⟨y, hy, x, hx, h⟩⟩

theorem setRes_all (s : State) (v0 v1 v2 v3 v4 : Word) :
    setRes (setRes (setRes (setRes (setRes s 0 v0) 1 v1) 2 v2) 3 v3) 4 v4 =
      { s with res := { res0 := v0, res1 := v1, res2 := v2, res3 := v3, res4 := v4 } } := by
  simp only [setRes, ResRegs.set]

theorem exec_mxScore (s : State) : exec .mxScore s =
    if s.mxVer = 0 then .next (errState 0x0E#8 s)
    else if someUnset s.grid (mxDim s) = true then .next (errState 0x11#8 s)
    else .next (okState { s with res := {
      res0 := resWord (penalty1 s.grid (mxDim s) + penalty2 s.grid (mxDim s) + penalty3 s.grid (mxDim s)
        + penalty4 s.grid (mxDim s))
      res1 := resWord (penalty1 s.grid (mxDim s))
      res2 := resWord (penalty2 s.grid (mxDim s))
      res3 := resWord (penalty3 s.grid (mxDim s))
      res4 := resWord (penalty4 s.grid (mxDim s)) } }) := by
  change execMxScore s = _
  rw [execMxScore]
  dsimp only
  rw [setRes_all]
  rfl

/-- Settles O26, by the branches of `exec_mxScore`; the bounds are those of DIM 177. -/
theorem mxScoreResults : Obligations.MxScoreResults := by
  refine ⟨⟨rfl, _, rfl⟩, fun s => ?_, fun g v _ hv => ?_⟩
  · dsimp only
    rw [exec_mxScore, ← someUnset_iff]
    refine ⟨fun hver hset => ?_, fun hver => if_pos hver, fun hver hunset => ?_⟩
    · rw [if_neg hver, if_neg hset]
      rfl
    · rw [if_neg hver, if_pos hunset]
  · have hdim : dim v ≤ 177 := by unfold dim; omega
    have hsub (k : Nat) : dim v - k ≤ 177 - k := Nat.sub_le_sub_right hdim k
    have h1 := (penalty1_le g (dim v)).trans (Nat.mul_le_mul_left 2 (Nat.mul_le_mul hdim (hsub 2)))
    have h2 := (penalty2_le g (dim v)).trans (Nat.mul_le_mul_left 3 (Nat.mul_le_mul (hsub 1) (hsub 1)))
    have h3 := (penalty3_le g (dim v)).trans (Nat.mul_le_mul_left 80 (Nat.mul_le_mul hdim (hsub 6)))
    have h4 := penalty4_le g (dim v)
    omega

end Sys2Proof.Machine
end

section
/-! PROOFS. The ends of a command (60 R210 to R215): the engine's transition, like every command's meaning, is one of the
two completions of `Completes`. -/

namespace Sys2Proof.Machine

open Safety

/-- The engine's transition is one of the two completions: the decoded command's, or ILLEGAL (30 R71). -/
theorem completes_engineStep (s : State) : Completes s (engineStep s) := by
  cases hd : decodeWord s.cmd with
  | ok i =>
    rw [engineStep_ok hd]
    exact completes_exec i s
  | error e =>
    rw [engineStep_error hd]
    exact completes_raise s .illegal

/-- 0x00 is the code of no error, so each code of the table is at least 0x01. -/
theorem ErrCode.one_le_number (c : ErrCode) : 1 ≤ c.number.toNat :=
  Nat.one_le_iff_ne_zero.mpr fun h => c.number_ne_zero (BitVec.eq_of_toNat_eq h)

/-- A completion is a next state, idle and DONE, with ERR and ERRCODE of exactly one of the two outcomes (60 R214). -/
theorem Completes.exists_outcome {s : State} {r : Result} (h : Completes s r) :
    ∃ t, r = .next t ∧ t.busy = false ∧ t.done = true
      ∧ ((t.err = false ∧ t.errcode = 0x00#8) ∨ (t.err = true ∧ 1 ≤ t.errcode.toNat ∧ t.errcode.toNat ≤ 0x11)) := by
  cases h with
  | ok u _ => exact ⟨succeed u, rfl, rfl, rfl, .inl ⟨rfl, rfl⟩⟩
  | error c d => exact ⟨failWith c { s with draws := d }, rfl, rfl, rfl, .inr ⟨rfl, c.one_le_number, c.number_le⟩⟩

/-- A completion with ERR = 1 is the state before, but for STATUS and the draws (60 R215): success clears ERR. -/
theorem Completes.eq_errState {s t : State} (h : Completes s (.next t)) (herr : t.err = true) :
    ∃ (c : BitVec 8) (d : Nat), t = errState c { s with draws := d } := by
  cases h with
  | ok u _ => simp at herr
  | error c d => exact ⟨c.number, d, rfl⟩

/-- Settles O56, by the two completions. -/
theorem everyCommandEndsInOneOutcome : Obligations.EveryCommandEndsInOneOutcome :=
  fun s => (completes_engineStep s).exists_outcome

/-- Settles O57, by the two completions: only the error's leaves ERR = 1. -/
theorem errorChangesOnlyStatus : Obligations.ErrorChangesOnlyStatus :=
  fun s _ hstep => (hstep ▸ completes_engineStep s).eq_errState

end Sys2Proof.Machine
end

section
/-! PROOFS. The hazards while a command is in flight (70 R247, R248): the host's writes and reads by offset. -/

namespace Sys2Proof.Machine

open Safety

/-- The ARG registers' offsets (10 R20). -/
theorem exists_argOffset {off : Nat} (h4 : off % 4 = 0) (hlo : 0x020 ≤ off) (hhi : off ≤ 0x034) :
    ∃ j : Fin 6, off = 0x020 + 4 * j :=
  ⟨⟨(off - 0x020) / 4, by omega⟩, by dsimp only; omega⟩

/-- The CWRAM window's offsets (20 R51). -/
theorem exists_windowOffset {off : Nat} (h4 : off % 4 = 0) (hlo : 0x4000 ≤ off) (hhi : off ≤ 0x7FFC) :
    ∃ i < 4096, off = 0x4000 + 4 * i :=
  ⟨(off - 0x4000) / 4, by omega, by omega⟩

/-- The offsets outside CTRL, STATUS, CMD, ARG and the window: a constant's, a result's or a mirror's, or reserved. -/
theorem readOnlyOffset_cases {off : Nat} (h4 : off % 4 = 0)
    (h : off < 0x014 ∨ 0x038 ≤ off ∧ off < 0x4000 ∨ 0x8000 ≤ off) :
    off ∈ constantOffsets ∨ off ∈ resultOffsets ∨ regOfOffset off = .reserved := by
  by_cases hg : 0x038 ≤ off ∧ off < 0x040 ∨ 0x054 ≤ off ∧ off < 0x060
  · exact .inr (.inr (regOfOffset_gap h4 hg))
  · by_cases hhi : 0x070 ≤ off
    · exact .inr (.inr (regOfOffset_reserved hhi (by omega)))
    · simp only [constantOffsets, resultOffsets, List.mem_cons, List.not_mem_nil, or_false]
      omega

/-- Writes to read-only and reserved offsets are ignored, busy or not (10 R39, 70 R247). -/
theorem hostWrite_readOnlyOffset {off : Nat} (h4 : off % 4 = 0)
    (h : off < 0x014 ∨ 0x038 ≤ off ∧ off < 0x4000 ∨ 0x8000 ≤ off) (v : Word) (s : State) :
    hostWrite (regOfOffset off) v s = s := by
  rcases readOnlyOffset_cases h4 h with hc | hr | hr
  · exact hostWrite_constantOffset hc v s
  · exact hostWrite_resultOffset hr v s
  · rw [hr]
    rfl

/-- Settles O48: the dropped writes are those of CMD, ARG and the window, each by its register's own statement. -/
theorem writesWhileBusy : Obligations.WritesWhileBusy := by
  intro s v hb
  obtain ⟨-, hctrl, hsrst, -⟩ := ctrlRegister s v
  refine ⟨fun off ho => ?_, fun off h4 hl ho => ?_, hctrl, fun h1 => ⟨softReset s, (hsrst h1).1, rfl⟩,
    portCycle_writeAt rfl (by decide) v s⟩
  · rcases ho with rfl | ⟨h4, hlo, hhi⟩ | ⟨h4, hlo, hhi⟩
    · obtain ⟨-, hcmd, -⟩ := cmdWriteIssues s v
      exact hcmd hb
    · obtain ⟨j, rfl⟩ := exists_argOffset h4 hlo hhi
      obtain ⟨hreg, -⟩ := argRegisters
      obtain ⟨-, -, harg, -⟩ := hreg s j v
      exact harg hb
    · obtain ⟨i, hi, rfl⟩ := exists_windowOffset h4 hlo hhi
      obtain ⟨-, -, -, hcw⟩ := cwramWindow s i v hi
      exact hcw hb
  · rw [portCycle_writeAt h4 hl, hostWrite_readOnlyOffset h4 ho]

/-- A window read while busy is the next free byte (70 R248). -/
theorem portCycle_readAt_window_busy {s : State} {i : Nat} (hb : s.busy = true) (hi : i < 4096) :
    portCycle (readAt (0x4000 + 4 * i)) s
      = .next { s with rdata := (Config.freeByte s.draws).setWidth 32, draws := s.draws + 1 } := by
  have hr : readReg (.cw i) s = ((Config.freeByte s.draws).setWidth 32, s.draws + 1) := readWindow_free (.inl hb)
  rw [portCycle_readAt (by omega) (by omega), regOfOffset_window hi, hostRead, hr]

/-- Settles O49: the free reads are those of the results, the mirrors and the window; the others draw nothing. -/
theorem readsWhileBusy : Obligations.ReadsWhileBusy := by
  intro s hb
  obtain ⟨hid, hrev, hbs, hcw, hec, -⟩ := constantRegisters s 0#32
  obtain ⟨hctrl, -⟩ := ctrlRegister s 0#32
  obtain ⟨⟨w, hstatus, hbusy, -⟩, -⟩ := statusRegisterAndIrq s 0#32
  obtain ⟨-, -, hcmd, -⟩ := cmdWriteIssues s 0#32
  obtain ⟨hreg, -⟩ := argRegisters
  refine ⟨fun off ho => ?_, fun i => portCycle_readAt_window_busy hb, hid, hrev, hbs, hcw, hec, hctrl,
    ⟨w, hstatus, hbusy.trans hb⟩, hcmd, fun j => (hreg s j 0#32).1⟩
  obtain ⟨h4, hl⟩ := resultOffset_aligned off ho
  obtain ⟨v, hr⟩ := readReg_resultOffset ho s
  exact portCycle_readAt_busy h4 hl hr hb

end Sys2Proof.Machine
end

section
/-! PROOFS. The resets (70 R241 to R243): the registers they leave, the matrix commands after them, and the CWRAM of a
command in flight. -/

namespace Sys2Proof.Machine

open Safety

/-! ## Reset values -/

theorem reset_args_get (j : Fin 6) : State.reset.args.get j = 0#32 := by
  obtain ⟨-, -, harg⟩ := argRegisters
  exact harg j

theorem reset_res_get (j : Fin 5) : State.reset.res.get j = 0#32 := by
  obtain ⟨-, hres, -⟩ := resultAndMirrorRegisters
  exact hres j

/-- Settles O54: the reset state is a hard reset of itself. -/
theorem resetMeetsInvariant : Obligations.ResetMeetsInvariant := inv_hardReset State.reset

/-- Settles O52: a CTRL write with SRST = 1 is `softReset`, whose registers are those of the reset state. -/
theorem softResetKeepsCwram : Obligations.SoftResetKeepsCwram := by
  intro s v h1
  obtain ⟨-, -, hsrst, -⟩ := ctrlRegister s v
  exact ⟨softReset s, (hsrst h1).1, rfl, rfl, rfl, rfl, rfl, rfl, rfl, reset_args_get, reset_res_get, rfl, rfl, rfl, rfl,
    rfl, fun hb => by simp [cwAfterSoftReset, hb]⟩

/-! ## The matrix commands without a matrix -/

section
variable {s : State} (hv : s.mxVer = 0)
include hv

theorem exec_mxSet_noMatrix {c : MxCell} (h : cellCode c = arg s 2) : exec .mxSet s = .next (errState 0x0E#8 s) := by
  rw [exec_mxSet_code s h, if_pos hv]

theorem exec_mxGet_noMatrix : exec .mxGet s = .next (errState 0x0E#8 s) := by rw [exec_mxGet, if_pos hv]

theorem exec_mxScore_noMatrix : exec .mxScore s = .next (errState 0x0E#8 s) := by rw [exec_mxScore, if_pos hv]

theorem exec_mxPlace_noMatrix (b : Buf) {mask : Option Nat} (h : maskOperand (arg s 0) = some mask) :
    exec (.mxPlace b) s = .next (errState 0x0E#8 s) := by
  rw [exec_mxPlace_mask b h, if_pos hv]

end

/-- Settles O51: the edge is `hardReset`; its ARG operands, all 0, pass the checks that come before MX_NODIM. -/
theorem hardResetValues : Obligations.HardResetValues := by
  intro s p hr hwe hre
  obtain ⟨-, -, -, -, hreset, -⟩ := onlyAccessesOutsideTheContractAreRefused s p
  obtain ⟨hid, hrev, hbs, hcw, hec, -⟩ := constantRegisters (hardReset s) 0#32
  exact ⟨hardReset s, hreset hr (by simp [hwe, hre]), rfl, rfl, rfl, rfl, rfl, rfl, rfl, reset_args_get, reset_res_get,
    rfl, rfl, rfl, rfl, fun _ => rfl, rfl, rfl, hid, hrev, hbs, hcw, hec, exec_mxSet_noMatrix (c := .light) rfl rfl,
    exec_mxGet_noMatrix rfl, exec_mxScore_noMatrix rfl, fun b => exec_mxPlace_noMatrix (mask := some 0) rfl b rfl⟩

/-! ## The command in flight at a soft reset -/

section
variable {s : State} (hb : s.busy = true)
include hb

theorem cwAfterSoftReset_ok {i : Instr} (hd : decodeWord s.cmd = .ok i) :
    cwAfterSoftReset s = cwForget s.cw (outputRegion i s).1 (outputRegion i s).2 := by
  simp [cwAfterSoftReset, hb, hd]

theorem cwAfterSoftReset_error {e : DecodeError} (hd : decodeWord s.cmd = .error e) : cwAfterSoftReset s = s.cw := by
  simp [cwAfterSoftReset, hb, hd]

/-- The output region is unwritten again, every other byte is kept (70 R243). -/
theorem cwGet?_softReset {i : Instr} (hd : decodeWord s.cmd = .ok i) :
    (∀ a, (outputRegion i s).1 ≤ a → a < (outputRegion i s).1 + (outputRegion i s).2 →
        cwGet? (softReset s).cw a = none)
      ∧ ∀ a, a < (outputRegion i s).1 ∨ (outputRegion i s).1 + (outputRegion i s).2 ≤ a →
        cwGet? (softReset s).cw a = cwGet? s.cw a := by
  rw [softReset_cw, cwAfterSoftReset_ok hb hd]
  exact ⟨fun a hlo hhi => cwGet?_cwForget_inside _ _ _ a ⟨hlo, hhi⟩,
    fun a ha => cwGet?_cwForget_outside _ _ _ a (by omega)⟩

end

/-- Settles O53: command by command, the region written out is `outputRegion`'s row. -/
theorem abortForgetsOutputRegion : Obligations.AbortForgetsOutputRegion := by
  refine fun s hb => ⟨fun i hd => ?_, fun e hd => cwAfterSoftReset_error hb hd⟩
  cases i <;> exact cwGet?_softReset hb hd

end Sys2Proof.Machine
end

section
/-! PROOFS. From an issue to the engine's transition (70 R252): a harmless host operation leaves the command in flight
alone and brings its transition one nearer. -/

namespace Sys2Proof.Machine

open Safety

/-- The command in flight, the host's queue and the latency left are those of `s`. -/
structure KeepsInFlight (s t : State) : Prop where
  busy : t.busy = s.busy
  cmd : t.cmd = s.cmd
  args : t.args = s.args
  bus : t.bus = s.bus
  wait : t.wait = s.wait

theorem KeepsInFlight.refl (s : State) : KeepsInFlight s s := ⟨rfl, rfl, rfl, rfl, rfl⟩

theorem keepsInFlight_hostRead (r : Reg) (s : State) : KeepsInFlight s (hostRead r s) := ⟨rfl, rfl, rfl, rfl, rfl⟩

/-- A CTRL write without SRST sets IE (10 R24). -/
theorem keepsInFlight_writeCtrl {w : Word} (h1 : w.getLsbD 1 = false) (s : State) :
    KeepsInFlight s (writeCtrl w s) := by
  rw [writeCtrl, h1, if_neg Bool.false_ne_true]
  exact ⟨rfl, rfl, rfl, rfl, rfl⟩

/-- A dropped write sets OVR (70 R247). -/
theorem keepsInFlight_writeIdle {s : State} (hb : s.busy = true) (t : State) : KeepsInFlight s (writeIdle s t) := by
  rw [writeIdle_busy hb]
  exact ⟨rfl, rfl, rfl, rfl, rfl⟩

/-- While busy only SRST reaches the command in flight (70 R243, R247). -/
theorem keepsInFlight_hostWrite {s : State} {r : Reg} {w : Word} (hb : s.busy = true)
    (hsrst : ¬(r = .ctrl ∧ w.getLsbD 1 = true)) : KeepsInFlight s (hostWrite r w s) := by
  cases r with
  | ctrl => exact keepsInFlight_writeCtrl (by simpa using hsrst) s
  | status => exact ⟨rfl, rfl, rfl, rfl, rfl⟩
  | cmd | arg | cw => exact keepsInFlight_writeIdle hb _
  | id | rev | paramBs | paramCw | paramEc | res | bsaLen | bsbLen | mxVer | mxDim | reserved =>
    exact KeepsInFlight.refl s

/-- An access within the contract has exactly one strobe (20 R54), so it has one. -/
theorem strobe_of_supportedAccess {p : PortInput} (h : supportedAccess p = true) : (p.we || p.re) = true := by
  have hor : ∀ a b : Bool, a ≠ b → (a || b) = true := by decide
  obtain ⟨hne, -⟩ := (supportedAccess_iff p).mp h
  exact hor _ _ hne

/-- A harmless clock edge while busy: no access, a write other than SRST, or a read. -/
theorem portCycle_harmless {p : PortInput} (hp : Harmless p) {s : State} (hb : s.busy = true) :
    ∃ t, portCycle p s = .next t ∧ KeepsInFlight s t := by
  obtain ⟨hrst, hhost, hacc, hsrst⟩ := hp
  rcases hacc with ⟨hwe, hre⟩ | hsup
  · obtain ⟨-, -, -, -, -, hquiet⟩ := onlyAccessesOutsideTheContractAreRefused s p
    exact ⟨s, hquiet hrst (by simp [hwe, hre]), .refl s⟩
  · refine ⟨_, portCycle_supported hrst (strobe_of_supportedAccess hsup) hhost hsup s, ?_⟩
    split
    · next hwe => exact keepsInFlight_hostWrite hb fun h => hsrst ⟨hwe, h⟩
    · exact keepsInFlight_hostRead _ s

/-- While latency is left, a harmless operation of the host takes one of it (log entry 2). -/
theorem step_harmless {s : State} {p : PortInput} {l : List HostOp} (hb : s.busy = true) (hw : s.wait ≠ 0)
    (hl : s.bus = .cycle p :: l) (hp : Harmless p) :
    ∃ t, step s = .next t ∧ KeepsInFlight { s with bus := l, wait := s.wait - 1 } t := by
  obtain ⟨-, hcycle, -⟩ := stepIsTheHostsOtherwise s (.inr ⟨hw, p, l, hl⟩)
  rw [hcycle p l hl]
  exact portCycle_harmless hp hb

/-- The transition is due now, or the host has an access to make and latency is left (70 R252). -/
theorem due_or_hostOp (s : State) :
    (s.bus = [] ∨ (∃ l, s.bus = .wait :: l) ∨ s.wait = 0) ∨ (s.wait ≠ 0 ∧ ∃ p l, s.bus = .cycle p :: l) := by
  by_cases hw : s.wait = 0
  · exact .inl (.inr (.inr hw))
  · match hl : s.bus with
    | [] => exact .inl (.inl rfl)
    | .wait :: l => exact .inl (.inr (.inl ⟨l, rfl⟩))
    | .cycle p :: l => exact .inr ⟨hw, p, l, rfl⟩

/-- Settles O60, by induction on the latency left: the transition is due, or a harmless operation takes one of it. -/
theorem engineTransitionComes : Obligations.EngineTransitionComes := by
  intro s hb hharm
  induction hn : s.wait generalizing s with
  | zero => exact ⟨0, le_rfl, s, rfl, hb, rfl, rfl, step_of_due hb (.inr (.inr hn))⟩
  | succ n ih =>
    rcases due_or_hostOp s with hdue | ⟨hw, p, l, hl⟩
    · exact ⟨0, Nat.zero_le _, s, rfl, hb, rfl, rfl, step_of_due hb hdue⟩
    · obtain ⟨u, hstep, hu⟩ := step_harmless hb hw hl (hharm p (by simp [hl]))
      have hub : u.bus = l := hu.bus
      have huw : u.wait = n := by simp [hu.wait, hn]
      obtain ⟨k, hk, t, hrun, htb, htc, hta, hdue⟩ :=
        ih u (hu.busy.trans hb) (fun q hq => hharm q (by simp [hl, ← hub, hq])) huw
      exact ⟨k + 1, Nat.succ_le_succ hk, t, (run_succ hstep k).trans hrun, htb, htc.trans hu.cmd, hta.trans hu.args,
        hdue⟩

end Sys2Proof.Machine
end
